-- ==== Sys2Proof/Word.lean ====
section
/-! DEFINITION. Names shared by the whole model: the two channels, the two submodules, the widths of
the registers (00_scope.md R2, R6) and the signed address step of a TransferState (10_state.md R31). -/

namespace Sys2Proof

/-- A transaction word `T[39:0]` (30_encoding.md R70). -/
abbrev TxWord := BitVec 40

/-- An address of the transfer address space, 24 bits (20_memory.md R60). -/
abbrev Addr := BitVec 24

/-- A 16-bit register or operand. -/
abbrev Half := BitVec 16

/-- An 8-bit register, lane or slice. -/
abbrev Byte := BitVec 8

/-- A channel index `c` (R2): channel 0 or channel 1. -/
inductive Chan where
  | ch0
  | ch1
deriving DecidableEq, Repr, Inhabited

/-- A submodule index `s` (R2): A is 0, B is 1. -/
inductive Sub where
  | subA
  | subB
deriving DecidableEq, Repr, Inhabited

/-- The number of a channel, 0 or 1. -/
def Chan.toNat : Chan → Nat
  | .ch0 => 0
  | .ch1 => 1

/-- The number of a submodule, 0 or 1. -/
def Sub.toNat : Sub → Nat
  | .subA => 0
  | .subB => 1

/-- The channel a one-bit field names. -/
def Chan.ofBool : Bool → Chan
  | false => .ch0
  | true => .ch1

/-- The submodule a one-bit field names. -/
def Sub.ofBool : Bool → Sub
  | false => .subA
  | true => .subB

/-- The other channel. -/
def Chan.other : Chan → Chan
  | .ch0 => .ch1
  | .ch1 => .ch0

/-- The other submodule. -/
def Sub.other : Sub → Sub
  | .subA => .subB
  | .subB => .subA

/-- A signed address step, one of -2, -1, 0, 1, 2 (10_state.md R31, 43_start_protocol.md R183). -/
inductive AddrStep where
  | minus2
  | minus1
  | zero
  | plus1
  | plus2
deriving DecidableEq, Repr, Inhabited

/-- The step as the signed number the spec writes. -/
def AddrStep.toInt : AddrStep → Int
  | .minus2 => -2
  | .minus1 => -1
  | .zero => 0
  | .plus1 => 1
  | .plus2 => 2

/-- The packed identifier `id = 2*c + s` (00_scope.md R11). -/
def packedId (c : Chan) (u : Sub) : BitVec 2 :=
  BitVec.ofNat 2 (2 * c.toNat + u.toNat)

end Sys2Proof
end

