-- ==== Sys2Proof/Syntax.lean ====
section
/-! DEFINITION. The transactions of the block: one constructor of `Instr` per row of
spec/opcode_table.json, with the operand fields of 30_encoding.md R71, R72, R75. Bits that a rule
says are ignored are no operands. -/

namespace Sys2Proof

/-- A decoded transaction. `c` is the channel; `data` and `mask` have the width the register uses
(R75); `v` is the vector field of TRIG; `l`, `a` are the line and level of DREQ; the operand of
CLRDTE, LAST, DONE is all of `data[15:0]`, of which `data[15:2]` must be 0 (R72, R77). -/
inductive Instr where
  | rdDmabcr
  | wrDmabcr (data mask : Half)
  | rdDmawer
  | wrDmawer (data mask : Byte)
  | rdMarah (c : Chan)
  | wrMarah (c : Chan) (data mask : Byte)
  | rdMaral (c : Chan)
  | wrMaral (c : Chan) (data mask : Half)
  | rdIoara (c : Chan)
  | wrIoara (c : Chan) (data mask : Half)
  | rdEtcra (c : Chan)
  | wrEtcra (c : Chan) (data mask : Half)
  | rdMarbh (c : Chan)
  | wrMarbh (c : Chan) (data mask : Byte)
  | rdMarbl (c : Chan)
  | wrMarbl (c : Chan) (data mask : Half)
  | rdIoarb (c : Chan)
  | wrIoarb (c : Chan) (data mask : Half)
  | rdEtcrb (c : Chan)
  | wrEtcrb (c : Chan) (data mask : Half)
  | rdDmacr (c : Chan)
  | wrDmacr (c : Chan) (data mask : Half)
  | rdDtcra (c : Chan)
  | wrDtcra (c : Chan) (data mask : Byte)
  | rdDtcrb (c : Chan)
  | wrDtcrb (c : Chan) (data mask : Byte)
  | rdIoara8 (c : Chan)
  | wrIoara8 (c : Chan) (data mask : Byte)
  | rdIoarb8 (c : Chan)
  | wrIoarb8 (c : Chan) (data mask : Byte)
  | reset
  | trig (v : Half)
  | dreq (l : Byte) (a : Bool)
  | clrdte (id : Half)
  | last (id : Half)
  | done (id : Half)
deriving DecidableEq, Repr

/-- The row's mnemonic in spec/opcode_table.json. -/
def Instr.mnemonic : Instr → String
  | .rdDmabcr => "RD.DMABCR"
  | .wrDmabcr _ _ => "WR.DMABCR"
  | .rdDmawer => "RD.DMAWER"
  | .wrDmawer _ _ => "WR.DMAWER"
  | .rdMarah _ => "RD.MARAH"
  | .wrMarah _ _ _ => "WR.MARAH"
  | .rdMaral _ => "RD.MARAL"
  | .wrMaral _ _ _ => "WR.MARAL"
  | .rdIoara _ => "RD.IOARA"
  | .wrIoara _ _ _ => "WR.IOARA"
  | .rdEtcra _ => "RD.ETCRA"
  | .wrEtcra _ _ _ => "WR.ETCRA"
  | .rdMarbh _ => "RD.MARBH"
  | .wrMarbh _ _ _ => "WR.MARBH"
  | .rdMarbl _ => "RD.MARBL"
  | .wrMarbl _ _ _ => "WR.MARBL"
  | .rdIoarb _ => "RD.IOARB"
  | .wrIoarb _ _ _ => "WR.IOARB"
  | .rdEtcrb _ => "RD.ETCRB"
  | .wrEtcrb _ _ _ => "WR.ETCRB"
  | .rdDmacr _ => "RD.DMACR"
  | .wrDmacr _ _ _ => "WR.DMACR"
  | .rdDtcra _ => "RD.DTCRA"
  | .wrDtcra _ _ _ => "WR.DTCRA"
  | .rdDtcrb _ => "RD.DTCRB"
  | .wrDtcrb _ _ _ => "WR.DTCRB"
  | .rdIoara8 _ => "RD.IOARA8"
  | .wrIoara8 _ _ _ => "WR.IOARA8"
  | .rdIoarb8 _ => "RD.IOARB8"
  | .wrIoarb8 _ _ _ => "WR.IOARB8"
  | .reset => "RESET"
  | .trig _ => "TRIG"
  | .dreq _ _ => "DREQ"
  | .clrdte _ => "CLRDTE"
  | .last _ => "LAST"
  | .done _ => "DONE"

/-- The pseudo-transactions of R95. `b` is the byte written, `a24` a 24-bit address. -/
inductive Pseudo where
  | wrDmabcrH (b : Byte)
  | wrDmabcrL (b : Byte)
  | wrDmacrA (c : Chan) (b : Byte)
  | wrDmacrB (c : Chan) (b : Byte)
  | wrEtcraH (c : Chan) (b : Byte)
  | wrEtcraL (c : Chan) (b : Byte)
  | wrEtcrbH (c : Chan) (b : Byte)
  | wrEtcrbL (c : Chan) (b : Byte)
  | wrMara (c : Chan) (a24 : Addr)
  | wrMarb (c : Chan) (a24 : Addr)
deriving DecidableEq, Repr

end Sys2Proof
end

