-- ==== Sys2Proof/WellFormed.lean ====
section
/-! DEFINITION. The operand checks of 30_encoding.md R77: what makes a decoded transaction
ill-formed, by name. The machine makes the same tests when it serves one (60_exceptions.md R205),
after the `Halted` test, so an ill-formed transaction decodes. -/

namespace Sys2Proof

/-- Why a decoded transaction is outside the spec (R77, R205). -/
inductive IllFormed where
  /-- CLRDTE, LAST or DONE with `data[15:2]` not 0. -/
  | idOutOfRange
  /-- A write to a full-width-only register whose mask does not cover it (20_memory.md R54). -/
  | partialMaskOnFullWidth
deriving DecidableEq, Repr

/-- R54, R75: a full-width-only register is written with a mask of all ones. -/
def checkFullMask {n : Nat} (mask : BitVec n) : Option IllFormed :=
  if mask = BitVec.allOnes n then none else some .partialMaskOnFullWidth

/-- R72, R77: `data[15:2]` of a packed-identifier event must be 0. -/
def checkId (id : Half) : Option IllFormed :=
  if id.toNat < 4 then none else some .idOutOfRange

/-- The operand test of each transaction: `none` where every operand value is allowed. -/
def Instr.illFormed : Instr → Option IllFormed
  | .rdDmabcr => none
  | .wrDmabcr _ _ => none
  | .rdDmawer => none
  | .wrDmawer _ mask => checkFullMask mask
  | .rdMarah _ => none
  | .wrMarah _ _ _ => none
  | .rdMaral _ => none
  | .wrMaral _ _ _ => none
  | .rdIoara _ => none
  | .wrIoara _ _ mask => checkFullMask mask
  | .rdEtcra _ => none
  | .wrEtcra _ _ _ => none
  | .rdMarbh _ => none
  | .wrMarbh _ _ _ => none
  | .rdMarbl _ => none
  | .wrMarbl _ _ _ => none
  | .rdIoarb _ => none
  | .wrIoarb _ _ mask => checkFullMask mask
  | .rdEtcrb _ => none
  | .wrEtcrb _ _ _ => none
  | .rdDmacr _ => none
  | .wrDmacr _ _ _ => none
  | .rdDtcra _ => none
  | .wrDtcra _ _ mask => checkFullMask mask
  | .rdDtcrb _ => none
  | .wrDtcrb _ _ mask => checkFullMask mask
  | .rdIoara8 _ => none
  | .wrIoara8 _ _ mask => checkFullMask mask
  | .rdIoarb8 _ => none
  | .wrIoarb8 _ _ mask => checkFullMask mask
  | .reset => none
  | .trig _ => none
  | .dreq _ _ => none
  | .clrdte id => checkId id
  | .last id => checkId id
  | .done id => checkId id

/-- A transaction inside the spec: no operand test refuses it. -/
abbrev Instr.WellFormed (i : Instr) : Prop := i.illFormed = none

end Sys2Proof
end

