-- ==== Sys2Proof/Decode.lean ====
section
/-! DEFINITION. The transaction word (30_encoding.md R70 to R77): the decoder, total on every 40-bit
word and refusing reserved operation codes by name; the encoder, written from the same tables; the
rows of spec/opcode_table.json as masks and patterns; the pseudo-transactions of R95. -/

namespace Sys2Proof

/-- What a word decodes to: a transaction, or the refusal `ReservedOpcode` of R77. -/
inductive Decoded where
  | instr (i : Instr)
  | reservedOpcode
deriving DecidableEq, Repr

/-- The field `op`, bits 39:32 (R70). -/
def opField (w : TxWord) : Byte := w.extractLsb' 32 8

/-- The field `data`, bits 31:16 (R70). -/
def dataField (w : TxWord) : Half := w.extractLsb' 16 16

/-- The field `mask`, bits 15:0 (R70). -/
def maskField (w : TxWord) : Half := w.extractLsb' 0 16

/-- The low lane of a 16-bit field: `data[7:0]` or `mask[7:0]` (R75). -/
def lowLane (h : Half) : Byte := h.extractLsb' 0 8

/-- Controller registers (R73), `CH = 0`, `c = 0`: the register index is `op[3:0]`. -/
def decodeController (write : Bool) (r : Nat) (data mask : Half) : Decoded :=
  match write, r with
  | false, 0 => .instr .rdDmabcr
  | false, 1 => .instr .rdDmawer
  | true, 0 => .instr (.wrDmabcr data mask)
  | true, 1 => .instr (.wrDmawer (lowLane data) (lowLane mask))
  | _, _ => .reservedOpcode

/-- Channel register reads (R74), by register index. -/
def decodeChannelRead (c : Chan) (r : Nat) : Decoded :=
  match r with
  | 0 => .instr (.rdMarah c)
  | 1 => .instr (.rdMaral c)
  | 2 => .instr (.rdIoara c)
  | 3 => .instr (.rdEtcra c)
  | 4 => .instr (.rdMarbh c)
  | 5 => .instr (.rdMarbl c)
  | 6 => .instr (.rdIoarb c)
  | 7 => .instr (.rdEtcrb c)
  | 8 => .instr (.rdDmacr c)
  | 9 => .instr (.rdDtcra c)
  | 10 => .instr (.rdDtcrb c)
  | 11 => .instr (.rdIoara8 c)
  | 12 => .instr (.rdIoarb8 c)
  | _ => .reservedOpcode

/-- Channel register writes (R74), by register index; `data` and `mask` used as R75 says. -/
def decodeChannelWrite (c : Chan) (r : Nat) (data mask : Half) : Decoded :=
  match r with
  | 0 => .instr (.wrMarah c (lowLane data) (lowLane mask))
  | 1 => .instr (.wrMaral c data mask)
  | 2 => .instr (.wrIoara c data mask)
  | 3 => .instr (.wrEtcra c data mask)
  | 4 => .instr (.wrMarbh c (lowLane data) (lowLane mask))
  | 5 => .instr (.wrMarbl c data mask)
  | 6 => .instr (.wrIoarb c data mask)
  | 7 => .instr (.wrEtcrb c data mask)
  | 8 => .instr (.wrDmacr c data mask)
  | 9 => .instr (.wrDtcra c (lowLane data) (lowLane mask))
  | 10 => .instr (.wrDtcrb c (lowLane data) (lowLane mask))
  | 11 => .instr (.wrIoara8 c (lowLane data) (lowLane mask))
  | 12 => .instr (.wrIoarb8 c (lowLane data) (lowLane mask))
  | _ => .reservedOpcode

/-- Events (R72), by `op[6:0]`: `op[6:4]` must be 0, so only 0 to 5 name an event. -/
def decodeEvent (e : Nat) (data : Half) : Decoded :=
  match e with
  | 0 => .instr .reset
  | 1 => .instr (.trig data)
  | 2 => .instr (.dreq (lowLane data) (data.getLsbD 8))
  | 3 => .instr (.clrdte data)
  | 4 => .instr (.last data)
  | 5 => .instr (.done data)
  | _ => .reservedOpcode

/-- The decoder by operation code (R71, R72). -/
def decodeOp (op : Byte) (data mask : Half) : Decoded :=
  if op.getLsbD 7 then
    decodeEvent (op.extractLsb' 0 7).toNat data
  else
    let write := op.getLsbD 6
    let r := (op.extractLsb' 0 4).toNat
    if op.getLsbD 5 then
      let c := Chan.ofBool (op.getLsbD 4)
      if write then decodeChannelWrite c r data mask else decodeChannelRead c r
    else if op.getLsbD 4 then .reservedOpcode
    else decodeController write r data mask

/-- The decoder of a transaction word: total; the reserved words of R77 are refused by name. -/
def decode (w : TxWord) : Decoded :=
  decodeOp (opField w) (dataField w) (maskField w)

/-- A transaction word from its three fields (R70). -/
def packWord (op : Byte) (data mask : Half) : TxWord := op ++ data ++ mask

/-- `op` of a channel register read, `0x20 + 0x10*c + r` (R74). -/
def readOp (c : Chan) (r : Nat) : Byte := BitVec.ofNat 8 (0x20 + 0x10 * c.toNat + r)

/-- `op` of a channel register write, `0x60 + 0x10*c + r` (R74). -/
def writeOp (c : Chan) (r : Nat) : Byte := BitVec.ofNat 8 (0x60 + 0x10 * c.toNat + r)

/-- The operation code of a transaction (R72 to R74). -/
def Instr.opcode : Instr → Byte
  | .rdDmabcr => 0x00#8
  | .wrDmabcr _ _ => 0x40#8
  | .rdDmawer => 0x01#8
  | .wrDmawer _ _ => 0x41#8
  | .rdMarah c => readOp c 0
  | .wrMarah c _ _ => writeOp c 0
  | .rdMaral c => readOp c 1
  | .wrMaral c _ _ => writeOp c 1
  | .rdIoara c => readOp c 2
  | .wrIoara c _ _ => writeOp c 2
  | .rdEtcra c => readOp c 3
  | .wrEtcra c _ _ => writeOp c 3
  | .rdMarbh c => readOp c 4
  | .wrMarbh c _ _ => writeOp c 4
  | .rdMarbl c => readOp c 5
  | .wrMarbl c _ _ => writeOp c 5
  | .rdIoarb c => readOp c 6
  | .wrIoarb c _ _ => writeOp c 6
  | .rdEtcrb c => readOp c 7
  | .wrEtcrb c _ _ => writeOp c 7
  | .rdDmacr c => readOp c 8
  | .wrDmacr c _ _ => writeOp c 8
  | .rdDtcra c => readOp c 9
  | .wrDtcra c _ _ => writeOp c 9
  | .rdDtcrb c => readOp c 10
  | .wrDtcrb c _ _ => writeOp c 10
  | .rdIoara8 c => readOp c 11
  | .wrIoara8 c _ _ => writeOp c 11
  | .rdIoarb8 c => readOp c 12
  | .wrIoarb8 c _ _ => writeOp c 12
  | .reset => 0x80#8
  | .trig _ => 0x81#8
  | .dreq _ _ => 0x82#8
  | .clrdte _ => 0x83#8
  | .last _ => 0x84#8
  | .done _ => 0x85#8

/-- The `data` field of a transaction: ignored bits are 0 (R72, R75). -/
def Instr.dataBits : Instr → Half
  | .rdDmabcr => 0#16
  | .wrDmabcr d _ => d
  | .rdDmawer => 0#16
  | .wrDmawer d _ => d.setWidth 16
  | .rdMarah _ => 0#16
  | .wrMarah _ d _ => d.setWidth 16
  | .rdMaral _ => 0#16
  | .wrMaral _ d _ => d
  | .rdIoara _ => 0#16
  | .wrIoara _ d _ => d
  | .rdEtcra _ => 0#16
  | .wrEtcra _ d _ => d
  | .rdMarbh _ => 0#16
  | .wrMarbh _ d _ => d.setWidth 16
  | .rdMarbl _ => 0#16
  | .wrMarbl _ d _ => d
  | .rdIoarb _ => 0#16
  | .wrIoarb _ d _ => d
  | .rdEtcrb _ => 0#16
  | .wrEtcrb _ d _ => d
  | .rdDmacr _ => 0#16
  | .wrDmacr _ d _ => d
  | .rdDtcra _ => 0#16
  | .wrDtcra _ d _ => d.setWidth 16
  | .rdDtcrb _ => 0#16
  | .wrDtcrb _ d _ => d.setWidth 16
  | .rdIoara8 _ => 0#16
  | .wrIoara8 _ d _ => d.setWidth 16
  | .rdIoarb8 _ => 0#16
  | .wrIoarb8 _ d _ => d.setWidth 16
  | .reset => 0#16
  | .trig v => v
  | .dreq l a => 0#7 ++ BitVec.ofBool a ++ l
  | .clrdte id => id
  | .last id => id
  | .done id => id

/-- The `mask` field of a transaction: ignored bits are 0 (R70, R75). -/
def Instr.maskBits : Instr → Half
  | .rdDmabcr => 0#16
  | .wrDmabcr _ m => m
  | .rdDmawer => 0#16
  | .wrDmawer _ m => m.setWidth 16
  | .rdMarah _ => 0#16
  | .wrMarah _ _ m => m.setWidth 16
  | .rdMaral _ => 0#16
  | .wrMaral _ _ m => m
  | .rdIoara _ => 0#16
  | .wrIoara _ _ m => m
  | .rdEtcra _ => 0#16
  | .wrEtcra _ _ m => m
  | .rdMarbh _ => 0#16
  | .wrMarbh _ _ m => m.setWidth 16
  | .rdMarbl _ => 0#16
  | .wrMarbl _ _ m => m
  | .rdIoarb _ => 0#16
  | .wrIoarb _ _ m => m
  | .rdEtcrb _ => 0#16
  | .wrEtcrb _ _ m => m
  | .rdDmacr _ => 0#16
  | .wrDmacr _ _ m => m
  | .rdDtcra _ => 0#16
  | .wrDtcra _ _ m => m.setWidth 16
  | .rdDtcrb _ => 0#16
  | .wrDtcrb _ _ m => m.setWidth 16
  | .rdIoara8 _ => 0#16
  | .wrIoara8 _ _ m => m.setWidth 16
  | .rdIoarb8 _ => 0#16
  | .wrIoarb8 _ _ m => m.setWidth 16
  | .reset => 0#16
  | .trig _ => 0#16
  | .dreq _ _ => 0#16
  | .clrdte _ => 0#16
  | .last _ => 0#16
  | .done _ => 0#16

/-- The encoder (R70 to R75): ignored bits are written as 0. -/
def encode (i : Instr) : TxWord := packWord i.opcode i.dataBits i.maskBits

/-- The instruction the decoder reads from a word numbered as spec/opcode_table.json numbers it: one
40-bit word, bit 39 the top bit of `op` (R70, R96). A number that does not fit 40 bits is no word. -/
def decodeTableWord (nbits w : Nat) : Option Instr :=
  if w % 2 ^ nbits < 2 ^ 40 then
    match decode (BitVec.ofNat 40 (w % 2 ^ nbits)) with
    | .instr i => some i
    | .reservedOpcode => none
  else none

/-- A row of spec/opcode_table.json: a word belongs to it when the bits of `mask` read as `pattern`. -/
structure OpcodeRow where
  mnemonic : String
  pattern : TxWord
  mask : TxWord
deriving DecidableEq, Repr

/-- The 36 rows of spec/opcode_table.json, in its order. -/
def opcodeRows : List OpcodeRow :=
  [⟨"RD.DMABCR", 0x0000000000#40, 0xFF00000000#40⟩,
   ⟨"WR.DMABCR", 0x4000000000#40, 0xFF00000000#40⟩,
   ⟨"RD.DMAWER", 0x0100000000#40, 0xFF00000000#40⟩,
   ⟨"WR.DMAWER", 0x4100000000#40, 0xFF00000000#40⟩,
   ⟨"RD.MARAH", 0x2000000000#40, 0xEF00000000#40⟩,
   ⟨"WR.MARAH", 0x6000000000#40, 0xEF00000000#40⟩,
   ⟨"RD.MARAL", 0x2100000000#40, 0xEF00000000#40⟩,
   ⟨"WR.MARAL", 0x6100000000#40, 0xEF00000000#40⟩,
   ⟨"RD.IOARA", 0x2200000000#40, 0xEF00000000#40⟩,
   ⟨"WR.IOARA", 0x6200000000#40, 0xEF00000000#40⟩,
   ⟨"RD.ETCRA", 0x2300000000#40, 0xEF00000000#40⟩,
   ⟨"WR.ETCRA", 0x6300000000#40, 0xEF00000000#40⟩,
   ⟨"RD.MARBH", 0x2400000000#40, 0xEF00000000#40⟩,
   ⟨"WR.MARBH", 0x6400000000#40, 0xEF00000000#40⟩,
   ⟨"RD.MARBL", 0x2500000000#40, 0xEF00000000#40⟩,
   ⟨"WR.MARBL", 0x6500000000#40, 0xEF00000000#40⟩,
   ⟨"RD.IOARB", 0x2600000000#40, 0xEF00000000#40⟩,
   ⟨"WR.IOARB", 0x6600000000#40, 0xEF00000000#40⟩] ++
  [⟨"RD.ETCRB", 0x2700000000#40, 0xEF00000000#40⟩,
   ⟨"WR.ETCRB", 0x6700000000#40, 0xEF00000000#40⟩,
   ⟨"RD.DMACR", 0x2800000000#40, 0xEF00000000#40⟩,
   ⟨"WR.DMACR", 0x6800000000#40, 0xEF00000000#40⟩,
   ⟨"RD.DTCRA", 0x2900000000#40, 0xEF00000000#40⟩,
   ⟨"WR.DTCRA", 0x6900000000#40, 0xEF00000000#40⟩,
   ⟨"RD.DTCRB", 0x2A00000000#40, 0xEF00000000#40⟩,
   ⟨"WR.DTCRB", 0x6A00000000#40, 0xEF00000000#40⟩,
   ⟨"RD.IOARA8", 0x2B00000000#40, 0xEF00000000#40⟩,
   ⟨"WR.IOARA8", 0x6B00000000#40, 0xEF00000000#40⟩,
   ⟨"RD.IOARB8", 0x2C00000000#40, 0xEF00000000#40⟩,
   ⟨"WR.IOARB8", 0x6C00000000#40, 0xEF00000000#40⟩,
   ⟨"RESET", 0x8000000000#40, 0xFF00000000#40⟩,
   ⟨"TRIG", 0x8100000000#40, 0xFF00000000#40⟩,
   ⟨"DREQ", 0x8200000000#40, 0xFF00000000#40⟩,
   ⟨"CLRDTE", 0x8300000000#40, 0xFF00000000#40⟩,
   ⟨"LAST", 0x8400000000#40, 0xFF00000000#40⟩,
   ⟨"DONE", 0x8500000000#40, 0xFF00000000#40⟩]

/-- The mask a write of R93 has when none is written: the full width of the register. -/
def defaultMask (n : Nat) : BitVec n := BitVec.allOnes n

/-- The mask `0xFF00` of the lane of bits 15:8 (20_memory.md R57). -/
def highLaneMask : Half := 0xFF00#16

/-- The mask `0x00FF` of the lane of bits 7:0 (R57). -/
def lowLaneMask : Half := 0x00FF#16

/-- A byte placed in the lane of bits 15:8. -/
def inHighLane (b : Byte) : Half := b ++ 0#8

/-- A byte placed in the lane of bits 7:0. -/
def inLowLane (b : Byte) : Half := 0#8 ++ b

/-- The transactions a pseudo-transaction stands for (R95), in order. -/
def expandPseudo : Pseudo → List Instr
  | .wrDmabcrH b => [.wrDmabcr (inHighLane b) highLaneMask]
  | .wrDmabcrL b => [.wrDmabcr (inLowLane b) lowLaneMask]
  | .wrDmacrA c b => [.wrDmacr c (inHighLane b) highLaneMask]
  | .wrDmacrB c b => [.wrDmacr c (inLowLane b) lowLaneMask]
  | .wrEtcraH c b => [.wrEtcra c (inHighLane b) highLaneMask]
  | .wrEtcraL c b => [.wrEtcra c (inLowLane b) lowLaneMask]
  | .wrEtcrbH c b => [.wrEtcrb c (inHighLane b) highLaneMask]
  | .wrEtcrbL c b => [.wrEtcrb c (inLowLane b) lowLaneMask]
  | .wrMara c a => [.wrMarah c (a.extractLsb' 16 8) (defaultMask 8), .wrMaral c (a.extractLsb' 0 16) (defaultMask 16)]
  | .wrMarb c a => [.wrMarbh c (a.extractLsb' 16 8) (defaultMask 8), .wrMarbl c (a.extractLsb' 0 16) (defaultMask 16)]

end Sys2Proof
end

