-- ==== Sys2Proof/Config.lean ====
section
/-! DEFINITION. What an implementation fixes: the parameters the document gives (00_scope.md R6) and
the open ones (R7), which are opaque, so that nothing can be proved of their values. -/

namespace Sys2Proof.Config

/-- `IO_BANK` of R6: ORed onto the 16-bit I/O address in short-address mode. -/
def ioBank : Addr := 0xFF0000#24

/-- `CNT_MAX16` of R6: the count when a 16-bit count register holds 0. -/
def cntMax16 : BitVec 17 := 0x10000#17

/-- `CNT_MAX8` of R6: the count in repeat mode when the low count byte holds 0. -/
def cntMax8 : BitVec 17 := 0x100#17

/-- `NLINE` of R6: the number of external request lines. -/
def nLine : Nat := 2

/-- `IRQ_BASE[c]` (R7, R97; D31): open, a natural number per channel. -/
opaque irqBase : Chan → Nat

/-- `REG_BASE` (R7, R51; D2): open; no rule depends on it and nothing of the model reads it. -/
opaque regBase : Nat

/-- `RESET_MAR[c][s]` (R7, R43; D26): the first argument numbers the reset, since every RESET draws
the value afresh (70_reset_and_hazards.md R220(b)). DESIGN CHOICE, log 4; unsafe where two runs are compared. -/
opaque resetMar : Nat → Chan → Sub → Addr

/-- `RESET_IOAR[c][s]` (R7, R43; D26). DESIGN CHOICE, log 4; unsafe where two runs are compared. -/
opaque resetIoar : Nat → Chan → Sub → Half

/-- `RESET_ETCR[c][s]` (R7, R43; D26). DESIGN CHOICE, log 4; unsafe where two runs are compared. -/
opaque resetEtcr : Nat → Chan → Sub → Half

/-- The field `source` of `RESET_TS[c][s]` (R7, R44; D27). DESIGN CHOICE, log 5; unsafe where two runs are compared. -/
opaque resetTsSource : Nat → Chan → Sub → Addr

/-- The field `dest` of `RESET_TS[c][s]` (R7, R44; D27). DESIGN CHOICE, log 5; unsafe where two runs are compared. -/
opaque resetTsDest : Nat → Chan → Sub → Addr

/-- The field `incs` of `RESET_TS[c][s]` (R7, R44; D27). DESIGN CHOICE, log 5; unsafe where two runs are compared. -/
opaque resetTsIncs : Nat → Chan → Sub → AddrStep

/-- The field `incd` of `RESET_TS[c][s]` (R7, R44; D27). DESIGN CHOICE, log 5; unsafe where two runs are compared. -/
opaque resetTsIncd : Nat → Chan → Sub → AddrStep

/-- The field `count` of `RESET_TS[c][s]` (R7, R44; D27). DESIGN CHOICE, log 5; unsafe where two runs are compared. -/
opaque resetTsCount : Nat → Chan → Sub → BitVec 17

/-- The field `mode16` of `RESET_TS[c][s]` (R7, R44; D27). DESIGN CHOICE, log 5; unsafe where two runs are compared. -/
opaque resetTsMode16 : Nat → Chan → Sub → Bool

/-- The field `autoreq` of `RESET_TS[c][s]` (R7, R44; U16). DESIGN CHOICE, log 5; unsafe where two runs are compared. -/
opaque resetTsAutoreq : Nat → Chan → Sub → Bool

/-- The field `suspended` of `RESET_TS[c][s]` (R7, R44; D27). DESIGN CHOICE, log 5; unsafe where two runs are compared. -/
opaque resetTsSuspended : Nat → Chan → Sub → Bool

end Sys2Proof.Config
end

