-- ==== Sys2Proof/Machine/State.lean ====
section
/-! DEFINITION. The state of the block (10_state.md R20) as plain data, the reasons a step can stop,
and the state after reset (R42 to R45). -/

namespace Sys2Proof.Machine

/-- A TransferState (10_state.md R31): the parameters of one transfer, handed to the bus master. -/
structure TransferState where
  source : Addr
  dest : Addr
  incs : AddrStep
  incd : AddrStep
  /-- Units remaining, 17 bits so that `0x10000` fits (R31; D38). -/
  count : BitVec 17
  mode16 : Bool
  autoreq : Bool
  suspended : Bool
  /-- The packed identifier `2*c + s`, a constant (R32). -/
  id : BitVec 2
deriving DecidableEq, Repr

/-- The registers and bookkeeping of one submodule (R24 to R26, R28, R31, R35). -/
structure Submodule where
  mar : Addr
  ioar : Half
  etcr : Half
  dtcr : Byte
  ts : TransferState
  inflight : Bool
deriving DecidableEq, Repr

/-- One channel: its five derived flags (R29, R30; bit 0 of a 2-bit flag is A's, bit 1 is B's), its
control register (R27), the level of its transfer-end line (R34) and its two submodules. -/
structure Channel where
  fae : Bool
  sae : Bool
  dta : BitVec 2
  dte : BitVec 2
  dtie : BitVec 2
  dmacr : Half
  tend : Bool
  subA : Submodule
  subB : Submodule
deriving DecidableEq, Repr

/-- The reasons of `Fatal` (60_exceptions.md R201). -/
inductive FatalReason where
  /-- A start attempt on an enabled full-address channel whose block bit is set (R171). -/
  | blockModeStartTest
  /-- A full-address `start` with the block bit set (R175); reached by no transaction. -/
  | blockModeStart
  /-- A completion in full-address mode with the block bit set (R192). -/
  | blockModeDone
deriving DecidableEq, Repr

/-- The code of a reason, 1 to 3 (R201). -/
def FatalReason.code : FatalReason → Nat
  | .blockModeStartTest => 1
  | .blockModeStart => 2
  | .blockModeDone => 3

/-- An outbound event (R9, R38): `Handoff(id)`, `End(c, level)`, `Irq(n)`, `Fatal(reason)`. -/
inductive Event where
  | handoff (id : BitVec 2)
  | endSignal (c : Chan) (level : Bool)
  | irq (n : Nat)
  | fatal (r : FatalReason)
deriving DecidableEq, Repr

/-- The response of a transaction (30_encoding.md R76): none, a read's 16 bits, or TRIG's one bit. -/
inductive Response where
  | none
  | word (v : Half)
  | bit (b : Bool)
deriving DecidableEq, Repr

/-- The outcome of the last transaction served (00_scope.md R10), but for `refused`, which is
`Host.Outcome.refused`; `idle` before the first one. DESIGN CHOICE, log 2; safe. -/
inductive TxOutcome where
  | idle
  | ok (r : Response)
  | fatal (r : FatalReason)
  | ignored
deriving DecidableEq, Repr

/-- The four fields the bus master may write in a TransferState it holds (R33; D37). -/
structure Progress where
  source : Addr
  dest : Addr
  count : BitVec 17
  suspended : Bool
deriving DecidableEq, Repr

/-- What can arrive from outside: a transaction (R9), or, between two transactions, a write of the
bus master to a TransferState it holds (R33). -/
inductive Inbound where
  | transaction (w : TxWord)
  | busMaster (id : BitVec 2) (p : Progress)
deriving DecidableEq, Repr

/-- The whole state: R20's elements, then the model's own `inbox` (what has arrived and is not yet
served, oldest first; log 1), `outcome` (log 2) and `resets` (how many RESETs were served; log 4). -/
structure State where
  dmabcr : Half
  dmawer : Byte
  dreqPrev0 : Bool
  dreqPrev1 : Bool
  ch0 : Channel
  ch1 : Channel
  hazard : Bool
  halted : Bool
  /-- Every outbound event since reset, the oldest first (R38). -/
  out : List Event
  inbox : List Inbound
  outcome : TxOutcome
  resets : Nat
deriving DecidableEq, Repr

/-- Faults: a step that stops. -/
inductive Fault where
  /-- Raised by `step` alone: the bus master writes a TransferState that it does not hold. The spec
  forbids it and gives it no effect (10_state.md R33, 70_reset_and_hazards.md R231(d)). Safe. -/
  | busMasterBreach (id : BitVec 2)
deriving DecidableEq, Repr

/-- Refusals: the outcome `refused(reason)` of R10, for transactions that the spec gives no meaning. -/
inductive Refusal where
  /-- Raised by an arm of `exec` that has no meaning yet; no arm has it now. Safe. -/
  | notModelled (mnemonic : String)
  /-- Raised by `step`: the word has a reserved operation code (R77, R205). Safe. -/
  | reservedOpcode
  /-- Raised by CLRDTE, LAST, DONE: `data[15:2]` is not 0 (R77, R205). Safe. -/
  | idOutOfRange
  /-- Raised by a write to a full-width-only register with a partial mask (20_memory.md R54, R205).
  Safe. -/
  | partialMaskOnFullWidth
  /-- Raised by every transaction but RESET while `halted` is set (R111, R203). Safe. -/
  | halted
deriving DecidableEq, Repr

/-- A run of an internal procedure: it returns a value, or it raised `Fatal` (R202), after which no
later line of any calling rule runs. Both carry the state reached. -/
inductive Proc (α : Type) where
  | ret (a : α) (s : State)
  | fatal (s : State)
deriving DecidableEq, Repr

/-- A TransferState that was never started: `RESET_TS[c][s]`, as drawn by reset number `draw` (R44). -/
def TransferState.afterReset (draw : Nat) (c : Chan) (u : Sub) : TransferState where
  source := Config.resetTsSource draw c u
  dest := Config.resetTsDest draw c u
  incs := Config.resetTsIncs draw c u
  incd := Config.resetTsIncd draw c u
  count := Config.resetTsCount draw c u
  mode16 := Config.resetTsMode16 draw c u
  autoreq := Config.resetTsAutoreq draw c u
  suspended := Config.resetTsSuspended draw c u
  id := packedId c u

/-- A submodule after reset number `draw` (R43, R44). -/
def Submodule.afterReset (draw : Nat) (c : Chan) (u : Sub) : Submodule where
  mar := Config.resetMar draw c u
  ioar := Config.resetIoar draw c u
  etcr := Config.resetEtcr draw c u
  dtcr := 0x00#8
  ts := TransferState.afterReset draw c u
  inflight := false

/-- A channel after reset number `draw` (R43). -/
def Channel.afterReset (draw : Nat) (c : Chan) : Channel where
  fae := false
  sae := false
  dta := 0b00#2
  dte := 0b00#2
  dtie := 0b00#2
  dmacr := 0x0000#16
  tend := false
  subA := Submodule.afterReset draw c .subA
  subB := Submodule.afterReset draw c .subB

/-- The state after reset number `draw` (R42 to R44, R220), nothing having arrived. -/
def State.afterReset (draw : Nat) : State where
  dmabcr := 0x0000#16
  dmawer := 0x00#8
  dreqPrev0 := false
  dreqPrev1 := false
  ch0 := Channel.afterReset draw .ch0
  ch1 := Channel.afterReset draw .ch1
  hazard := false
  halted := false
  out := []
  inbox := []
  outcome := .idle
  resets := draw

/-- The machine right after reset: the initial state of a model is the state after RESET (R221). -/
def State.reset : State := State.afterReset 0

end Sys2Proof.Machine
end

