-- ==== Sys2Proof/Machine/Operands.lean ====
section
/-! DEFINITION. Operand forms and the pure functions of register contents: the mask merge, the views
of a register, packed identifiers, vector and line codes, the DMACR predicates of 30_encoding.md R83,
and the transfer parameters of 43_start_protocol.md R175 to R180. -/

namespace Sys2Proof.Machine

/-- `merge(cur, new, mask)` (20_memory.md R53). -/
def merge {n : Nat} (cur new mask : BitVec n) : BitVec n := (cur &&& ~~~mask) ||| (new &&& mask)

/-- `x[i] <- 0`, the other bits unchanged. -/
def clearBit {n : Nat} (x : BitVec n) (i : Nat) : BitVec n := x &&& ~~~(BitVec.twoPow n i)

/-! ### Views of registers -/

/-- The high part of an address register, bits 23:16 (R58). -/
def marHigh (a : Addr) : Byte := a.extractLsb' 16 8

/-- The low part of an address register, bits 15:0 (R58). -/
def marLow (a : Addr) : Half := a.extractLsb' 0 16

/-- A write to the high part (R58): bits 15:0 stay. -/
def withMarHigh (a : Addr) (data mask : Byte) : Addr := merge (marHigh a) data mask ++ marLow a

/-- A write to the low part (R58): bits 23:16 stay. -/
def withMarLow (a : Addr) (data mask : Half) : Addr := marHigh a ++ merge (marLow a) data mask

/-- An 8-bit register as a 16-bit response (R55, R76). -/
def zext16 (b : Byte) : Half := b.setWidth 16

/-- The 8-bit view of an I/O address register (30_encoding.md R91). -/
def ioarLow (h : Half) : Byte := h.extractLsb' 0 8

/-- What a write through the 8-bit alias stores: the high byte is forced to `0xFF` (R91). -/
def ioarFromAlias (data : Byte) : Half := 0xFF#8 ++ data

/-! ### Packed identifiers, lines and vectors -/

/-- The channel of a packed identifier, `id[1]` (R11). -/
def idChan (id : BitVec 2) : Chan := Chan.ofBool (id.getLsbD 1)

/-- The submodule of a packed identifier, `id[0]` (R11). -/
def idSub (id : BitVec 2) : Sub := Sub.ofBool (id.getLsbD 0)

/-- The packed identifier in `data[1:0]` (R89). -/
def idField (data : Half) : BitVec 2 := data.extractLsb' 0 2

/-- The channel a line identifier belongs to; `none` for an unsupported line (R88, R105). -/
def lineChan (l : Byte) : Option Chan :=
  if l = 0#8 then some .ch0 else if l = 1#8 then some .ch1 else none

/-- The start causes of `attempt_start` (R87): `IMM`, `LEVEL`, `EDGE`, or a peripheral's vector. -/
inductive StartCause where
  | immediate
  | level
  | edge
  | peripheral
deriving DecidableEq, Repr

/-- The cause a signed 16-bit vector code names: -1, -2, -3, or any other (R87). -/
def causeOf (v : Half) : StartCause :=
  if v.toInt = -1 then .immediate
  else if v.toInt = -2 then .level
  else if v.toInt = -3 then .edge
  else .peripheral

/-! ### The predicates of R83 -/

/-- `edge_match`: `dmacr[2:0] = 0b010`; bit 3 is not compared (R83, R173). -/
def edgeMatch (dmacr : Half) : Bool := dmacr.extractLsb' 0 3 == 0b010#3

/-- `level_match`: `dmacr[2:0] = 0b011` (R83, R173). -/
def levelMatch (dmacr : Half) : Bool := dmacr.extractLsb' 0 3 == 0b011#3

/-- `auto_full`: `dmacr[2:1] = 0b11`, full-address mode only (R83; C4). -/
def autoFull (dmacr : Half) : Bool := dmacr.extractLsb' 1 2 == 0b11#2

/-- `block`: `dmacr[11] = 1`, full-address mode only (R83). -/
def blockBit (dmacr : Half) : Bool := dmacr.getLsbD 11

/-- `cr(c, s)`: bits 15:8 are submodule A's slice, bits 7:0 submodule B's (R80, R83). -/
def slice (dmacr : Half) : Sub → Byte
  | .subA => dmacr.extractLsb' 8 8
  | .subB => dmacr.extractLsb' 0 8

/-- `rpe(c, s)`: slice bit 5 (R83). -/
def rpe (dmacr : Half) (u : Sub) : Bool := (slice dmacr u).getLsbD 5

/-- Bit `s` of a 2-bit flag: bit 0 is A's, bit 1 is B's (R29). -/
def flagBit (f : BitVec 2) (u : Sub) : Bool := f.getLsbD u.toNat

/-- `repeat(c, s)`: the sub-mode bit set and `dta[c][s] = 0` (R83). -/
def isRepeat (ch : Channel) (u : Sub) : Bool := rpe ch.dmacr u && !flagBit ch.dta u

/-- `idle(c, s)`: the sub-mode bit set and `dta[c][s] = 1` (R83). -/
def isIdle (ch : Channel) (u : Sub) : Bool := rpe ch.dmacr u && flagBit ch.dta u

/-- Whether a request event matches a control word (R173); an Immediate or a peripheral's vector
matches nothing (R174). -/
def requestMatches (v : StartCause) (dmacr : Half) : Bool :=
  match v with
  | .edge => edgeMatch dmacr
  | .level => levelMatch dmacr
  | .immediate => false
  | .peripheral => false

/-! ### Transfer parameters -/

/-- A moving side's step: magnitude 2 for 16-bit units, else 1; negative when it decrements (R183). -/
def movingStep (wide down : Bool) : AddrStep :=
  match wide, down with
  | false, false => .plus1
  | false, true => .minus1
  | true, false => .plus2
  | true, true => .minus2

/-- The 16-bit count: a stored 0 means `0x10000` (R182; C2). -/
def count16 (e : Half) : BitVec 17 := if e = 0#16 then Config.cntMax16 else e.setWidth 17

/-- The repeat-mode count: the low byte, a 0 there meaning `0x100` (R179, R182). -/
def count8 (e : Half) : BitVec 17 :=
  if e.extractLsb' 0 8 = 0#8 then Config.cntMax8 else (e.extractLsb' 0 8).setWidth 17

/-- The I/O-side address `0xFF0000 | ioar` (20_memory.md R61). -/
def ioAddr (ioar : Half) : Addr := Config.ioBank ||| ioar.setWidth 24

/-- The TransferState that a full-address `start` derives from the channel's registers (R175). -/
def fullTransfer (ch : Channel) (t : TransferState) : TransferState :=
  let wide := ch.dmacr.getLsbD 15
  { t with
    source := ch.subA.mar
    dest := ch.subB.mar
    count := count16 ch.subA.etcr
    mode16 := wide
    incs := if ch.dmacr.getLsbD 13 then movingStep wide (ch.dmacr.getLsbD 14) else .zero
    incd := if ch.dmacr.getLsbD 5 then movingStep wide (ch.dmacr.getLsbD 6) else .zero
    autoreq := autoFull ch.dmacr
    suspended := !autoFull ch.dmacr }

/-- The step of the memory side of a short-address transfer: 0 in idle, else by slice bits 7 and 6
(R176 to R179). -/
def memStep (ch : Channel) (u : Sub) : AddrStep :=
  if isIdle ch u then .zero
  else movingStep ((slice ch.dmacr u).getLsbD 7) ((slice ch.dmacr u).getLsbD 6)

/-- The unit count of a short-address transfer: 8 bits in repeat, else 16 bits (R176 to R179). -/
def shortCount (ch : Channel) (u : Sub) (etcr : Half) : BitVec 17 :=
  if isRepeat ch u then count8 etcr else count16 etcr

/-- The TransferState that a short-address `start` derives for submodule `u`, whose registers are
`m` (R176); slice bit 4 (DTDIR) selects which side is the memory's (R180). -/
def shortTransfer (ch : Channel) (u : Sub) (m : Submodule) : TransferState :=
  let k := slice ch.dmacr u
  let ioIsSource := k.getLsbD 4
  { m.ts with
    source := if ioIsSource then ioAddr m.ioar else m.mar
    dest := if ioIsSource then m.mar else ioAddr m.ioar
    incs := if ioIsSource then .zero else memStep ch u
    incd := if ioIsSource then memStep ch u else .zero
    count := shortCount ch u m.etcr
    mode16 := k.getLsbD 7
    autoreq := false
    suspended := true }

end Sys2Proof.Machine
end

