-- ==== Sys2Proof/Machine/Ops.lean ====
section
/-! DEFINITION. The named operations over the state that every meaning is written with: access to
channels and submodules, events, the hand-over to the bus master, raising `Fatal` and the one way back
from it, RESET, the gate every transaction passes, and the service of what has arrived. -/

namespace Sys2Proof.Machine

/-! ### Access -/

/-- A submodule of a channel. -/
def Channel.sub (ch : Channel) : Sub → Submodule
  | .subA => ch.subA
  | .subB => ch.subB

/-- A channel with one submodule replaced. -/
def Channel.setSub (ch : Channel) (u : Sub) (m : Submodule) : Channel :=
  { ch with
    subA := match u with | .subA => m | .subB => ch.subA
    subB := match u with | .subA => ch.subB | .subB => m }

/-- A channel of the state. -/
def State.chan (s : State) : Chan → Channel
  | .ch0 => s.ch0
  | .ch1 => s.ch1

/-- The state with one channel replaced. -/
def State.setChan (s : State) (c : Chan) (ch : Channel) : State :=
  { s with
    ch0 := match c with | .ch0 => ch | .ch1 => s.ch0
    ch1 := match c with | .ch0 => s.ch1 | .ch1 => ch }

/-- Submodule `u` of channel `c`. -/
def State.sub (s : State) (c : Chan) (u : Sub) : Submodule := (s.chan c).sub u

/-- The state with submodule `u` of channel `c` replaced. -/
def State.setSub (s : State) (c : Chan) (u : Sub) (m : Submodule) : State :=
  s.setChan c ((s.chan c).setSub u m)

/-- `mar[c][s]`. -/
def State.mar (s : State) (c : Chan) (u : Sub) : Addr := (s.sub c u).mar

/-- `mar[c][s] <- a`. -/
def State.setMar (s : State) (c : Chan) (u : Sub) (a : Addr) : State :=
  s.setSub c u { s.sub c u with mar := a }

/-- `ioar[c][s]`. -/
def State.ioar (s : State) (c : Chan) (u : Sub) : Half := (s.sub c u).ioar

/-- `ioar[c][s] <- h`. -/
def State.setIoar (s : State) (c : Chan) (u : Sub) (h : Half) : State :=
  s.setSub c u { s.sub c u with ioar := h }

/-- `etcr[c][s]`. -/
def State.etcr (s : State) (c : Chan) (u : Sub) : Half := (s.sub c u).etcr

/-- `etcr[c][s] <- h`. -/
def State.setEtcr (s : State) (c : Chan) (u : Sub) (h : Half) : State :=
  s.setSub c u { s.sub c u with etcr := h }

/-- `dtcr[c][s]`. -/
def State.dtcr (s : State) (c : Chan) (u : Sub) : Byte := (s.sub c u).dtcr

/-- `dtcr[c][s] <- b`. -/
def State.setDtcr (s : State) (c : Chan) (u : Sub) (b : Byte) : State :=
  s.setSub c u { s.sub c u with dtcr := b }

/-- `ts[c][s]`. -/
def State.ts (s : State) (c : Chan) (u : Sub) : TransferState := (s.sub c u).ts

/-- `ts[c][s] <- t`. -/
def State.setTs (s : State) (c : Chan) (u : Sub) (t : TransferState) : State :=
  s.setSub c u { s.sub c u with ts := t }

/-- `inflight[c][s]`. -/
def State.inflight (s : State) (c : Chan) (u : Sub) : Bool := (s.sub c u).inflight

/-- `inflight[c][s] <- b`. -/
def State.setInflight (s : State) (c : Chan) (u : Sub) (b : Bool) : State :=
  s.setSub c u { s.sub c u with inflight := b }

/-- `dmacr[c]`. -/
def State.dmacr (s : State) (c : Chan) : Half := (s.chan c).dmacr

/-- `dmacr[c] <- h`. -/
def State.setDmacr (s : State) (c : Chan) (h : Half) : State :=
  s.setChan c { s.chan c with dmacr := h }

/-- `dte[c]`. -/
def State.dte (s : State) (c : Chan) : BitVec 2 := (s.chan c).dte

/-- `dte[c] <- f`. -/
def State.setDte (s : State) (c : Chan) (f : BitVec 2) : State :=
  s.setChan c { s.chan c with dte := f }

/-- `tend[c] <- b`. -/
def State.setTend (s : State) (c : Chan) (b : Bool) : State :=
  s.setChan c { s.chan c with tend := b }

/-- `dreq_prev[l]`, line `l` being the line of channel `l` (R23, R88). -/
def State.dreqPrev (s : State) : Chan → Bool
  | .ch0 => s.dreqPrev0
  | .ch1 => s.dreqPrev1

/-- `dreq_prev[l] <- a`. -/
def State.setDreqPrev (s : State) (c : Chan) (a : Bool) : State :=
  { s with
    dreqPrev0 := match c with | .ch0 => a | .ch1 => s.dreqPrev0
    dreqPrev1 := match c with | .ch0 => s.dreqPrev1 | .ch1 => a }

/-! ### Events and procedures -/

/-- `emit E` (R38). -/
def State.emit (s : State) (e : Event) : State := { s with out := s.out ++ [e] }

/-- `call P` and go on with its result; after a `Fatal` nothing more runs (R202). -/
def Proc.bind {α β : Type} (p : Proc α) (f : α → State → Proc β) : Proc β :=
  match p with
  | .ret a s => f a s
  | .fatal s => .fatal s

/-- The effect of `raise Fatal(reason)` (60_exceptions.md R202): the event, then the latch; earlier
writes stay. This is the machine's one exception; it saves nothing and goes nowhere (R212). -/
def raiseFatal (r : FatalReason) (s : State) : State :=
  { s.emit (.fatal r) with halted := true, outcome := .fatal r }

/-- `raise Fatal(reason)` inside a procedure. -/
def Proc.raise {α : Type} (r : FatalReason) (s : State) : Proc α := .fatal (raiseFatal r s)

/-- RESET (70_reset_and_hazards.md R220), the only return from a fatal (R203, R212): every element to
its reset value, the open ones drawn afresh; what has arrived after it waits on (log 8). -/
def resetBlock (s : State) : State :=
  { State.afterReset (s.resets + 1) with inbox := s.inbox, outcome := .ok .none }

/-- `handoff(c, s)` (R181): the hazard latch, the in-flight bit, the event, in this order. -/
def handoff (c : Chan) (u : Sub) (s : State) : State :=
  ({ s with hazard := s.hazard || s.inflight c u }.setInflight c u true).emit (.handoff (packedId c u))

/-- `ts[c][s].suspended <- 0` (R171, R172). -/
def unsuspend (c : Chan) (u : Sub) (s : State) : State :=
  s.setTs c u { s.ts c u with suspended := false }

/-- `clear_enable(id)` (40_controller.md R106): `dmabcr[4 + id] <- 0`, nothing else. -/
def clearEnable (id : BitVec 2) (s : State) : State :=
  { s with dmabcr := clearBit s.dmabcr (4 + id.toNat) }

/-- The condition of `last_unit` and of `transfer_done`'s prologue with its two effects (R190, R191):
where `ts[c][s].autoreq = 0`, `tend[c] <- level` and `emit End(c, level)`. -/
def driveEnd (c : Chan) (u : Sub) (level : Bool) (s : State) : State :=
  let auto := (s.ts c u).autoreq
  { s.setTend c (if auto then (s.chan c).tend else level) with
    out := s.out ++ (if auto then [] else [.endSignal c level]) }

/-! ### The frame of a transaction -/

/-- What a step answers. -/
abbrev Answer := Host.Outcome State Fault Refusal

/-- The end of a transaction (R10): `ok` with its response, or `fatal`, which `raiseFatal` recorded. -/
def finish (p : Proc Response) : Answer :=
  match p with
  | .ret r s => .next { s with outcome := .ok r }
  | .fatal s => .next s

/-- The gate R111: every transaction but RESET is refused while `halted` is set. -/
def gated (s : State) (a : Answer) : Answer := if s.halted then .refused .halted else a

/-- A transaction that always ends `ok`: it leaves `t` and answers `r`. -/
def complete (s : State) (r : Response) (t : State) : Answer := gated s (finish (.ret r t))

/-- The operand test of a full-width-only register (20_memory.md R54), after the gate (R205). -/
def withFullMask {n : Nat} (s : State) (mask : BitVec n) (a : Answer) : Answer :=
  gated s (if mask = BitVec.allOnes n then a else .refused .partialMaskOnFullWidth)

/-- The operand test of a packed identifier (R72, R77), after the gate (R205). -/
def withId (s : State) (data : Half) (f : BitVec 2 → Answer) : Answer :=
  gated s (if data.toNat < 4 then f (idField data) else .refused .idOutOfRange)

/-! ### What has arrived -/

/-- A write of the bus master to a TransferState (10_state.md R33): these four fields alone. -/
def applyProgress (id : BitVec 2) (p : Progress) (s : State) : State :=
  s.setTs (idChan id) (idSub id)
    { s.ts (idChan id) (idSub id) with
      source := p.source, dest := p.dest, count := p.count, suspended := p.suspended }

/-- The service of a bus master's write: it may write only what it holds (R33, R231(d)). -/
def serveBusMaster (id : BitVec 2) (p : Progress) (s : State) : Answer :=
  if s.inflight (idChan id) (idSub id) then .next (applyProgress id p s)
  else .fault (.busMasterBreach id)

/-- The state with a word placed as the oldest item of `inbox`, in the place of the one there. -/
def placeWord (w : TxWord) (s : State) : State :=
  { s with inbox := .transaction w :: s.inbox.drop 1 }

/-- The word of a numbered transaction (spec/opcode_table.json's numbering, 30_encoding.md R70). -/
def tableWord (nbits w : Nat) : TxWord := BitVec.ofNat 40 (w % 2 ^ nbits)

end Sys2Proof.Machine
end

