-- ==== Sys2Proof/Machine/Flags.lean ====
section
/-! DEFINITION. The two writers of a channel's five flags (10_state.md R29): `derive_flags` from the
block-control word, and the flags of the legacy pair. -/

namespace Sys2Proof.Machine

/-- A channel with its flags copied from its slice of a block-control word (30_encoding.md R79). -/
def Channel.withSlice (ch : Channel) (c : Chan) (dmabcr : Half) : Channel :=
  { ch with
    fae := dmabcr.getLsbD (14 + c.toNat)
    sae := dmabcr.getLsbD (12 + c.toNat)
    dta := dmabcr.extractLsb' (8 + 2 * c.toNat) 2
    dte := dmabcr.extractLsb' (4 + 2 * c.toNat) 2
    dtie := dmabcr.extractLsb' (2 * c.toNat) 2 }

/-- `derive_flags(c)` (40_controller.md R109). -/
def deriveFlags (c : Chan) (s : State) : State :=
  s.setChan c ((s.chan c).withSlice c s.dmabcr)

/-- Full-address detection: bits 2 and 1 of DTCRA both 1 (42_legacy_translation.md R154). -/
def legacyFull (a : Byte) : Bool := a.getLsbD 2 && a.getLsbD 1

/-- A channel with the flags of a legacy pair `a`, `b` (R151, R153, R158). -/
def Channel.withLegacyFlags (ch : Channel) (a b : Byte) : Channel :=
  let full := legacyFull a
  { ch with
    fae := full
    sae := !full
    dte := BitVec.ofBool (b.getLsbD 7) ++ BitVec.ofBool (a.getLsbD 7)
    dtie := BitVec.ofBool (!full && b.getLsbD 3) ++ BitVec.ofBool (a.getLsbD 3)
    dta := 0b00#2 }

end Sys2Proof.Machine
end

