-- ==== Sys2Proof/Machine/Start.lean ====
section
/-! DEFINITION. The start protocol: `start` (43_start_protocol.md R175, R176) and `attempt_start`
(R170 to R174). -/

namespace Sys2Proof.Machine

/-- `start(c, s)` in full-address mode (R175). -/
def startFull (c : Chan) (u : Sub) (s : State) : Proc Unit :=
  if blockBit (s.dmacr c) then .raise .blockModeStart s
  else .ret () (handoff c u (s.setTs c u (fullTransfer (s.chan c) (s.ts c u))))

/-- `start(c, s)` in short-address mode (R176). -/
def startShort (c : Chan) (u : Sub) (s : State) : Proc Unit :=
  .ret () (handoff c u (s.setTs c u (shortTransfer (s.chan c) u (s.sub c u))))

/-- `start(c, s)`, by the channel's addressing mode (R175, R176). -/
def start (c : Chan) (u : Sub) (s : State) : Proc Unit :=
  if (s.chan c).fae then startFull c u s else startShort c u s

/-- `start` where the submodule's enable bit is set, else nothing (R172). -/
def startIfEnabled (c : Chan) (u : Sub) (s : State) : Proc Unit :=
  if flagBit (s.dte c) u then start c u s else .ret () s

/-- The full-address branch of `attempt_start` (R171): the enable, then the block bit, then the
cause. -/
def attemptFull (c : Chan) (v : StartCause) (s : State) : Proc Bool :=
  if !flagBit (s.dte c) .subA then .ret false s
  else if blockBit (s.dmacr c) then .raise .blockModeStartTest s
  else if v = .immediate then (start c .subA s).bind fun _ t => .ret true t
  else if requestMatches v (s.dmacr c) then .ret true (unsuspend c .subA s)
  else .ret false s

/-- The short-address branch of `attempt_start` (R172): an Immediate starts B, then A; a matching
request lifts B's suspension. -/
def attemptShort (c : Chan) (v : StartCause) (s : State) : Proc Bool :=
  if s.dte c = 0b00#2 then .ret false s
  else if v = .immediate then
    (startIfEnabled c .subB s).bind fun _ t =>
      (startIfEnabled c .subA t).bind fun _ t' => .ret true t'
  else if requestMatches v (s.dmacr c) then .ret true (unsuspend c .subB s)
  else .ret false s

/-- `attempt_start(c, v)` (R170): true where a submodule was started or unsuspended. -/
def attemptStart (c : Chan) (v : StartCause) (s : State) : Proc Bool :=
  if (s.chan c).fae then attemptFull c v s else attemptShort c v s

end Sys2Proof.Machine
end

