-- ==== Sys2Proof/Machine/Translate.lean ====
section
/-! DEFINITION. The translation of the legacy DTCR pair into DMACR and the flags
(42_legacy_translation.md). -/

namespace Sys2Proof.Machine

/-- The request source of full-address normal mode, from `b[2:0]` (R155). -/
def fullNormalCode (f : BitVec 3) : BitVec 4 :=
  if f = 0b000#3 then 0b0111#4
  else if f = 0b010#3 then 0b0110#4
  else if f = 0b110#3 then 0b0010#4
  else 0b0000#4

/-- The request source of full-address block mode, from `b[2:0]` (R156). -/
def fullBlockCode (f : BitVec 3) : BitVec 4 :=
  if f = 0b000#3 then 0b1000#4
  else if f = 0b001#3 then 0b1001#4
  else if f = 0b010#3 then 0b1010#4
  else if f = 0b011#3 then 0b1011#4
  else if f = 0b110#3 then 0b0010#4
  else 0b0000#4

/-- The request source of short-address mode, for either register (R157). -/
def shortCode (f : BitVec 3) : BitVec 4 :=
  if f = 0b000#3 then 0b1000#4
  else if f = 0b001#3 then 0b1001#4
  else if f = 0b010#3 then 0b1010#4
  else if f = 0b011#3 then 0b1011#4
  else if f = 0b100#3 then 0b0100#4
  else if f = 0b101#3 then 0b0101#4
  else if f = 0b110#3 then 0b0010#4
  else 0b0011#4

/-- The control word of a legacy pair (R151): `a[6:4]` to bits 15:13, `b[6:4]` to bits 7:5 (R152); in
block mode BLKDIR and BLKE are bits 12 and 11 (R156); the source codes below (R155 to R157). Built
from zero. -/
def legacyDmacr (a b : Byte) : Half :=
  let sideA := a.extractLsb' 4 3
  let sideB := b.extractLsb' 4 3
  if legacyFull a then
    if a.getLsbD 0 then
      sideA ++ BitVec.ofBool (b.getLsbD 3) ++ 1#1 ++ 0#3 ++ sideB ++ 0#1 ++ fullBlockCode (b.extractLsb' 0 3)
    else
      sideA ++ 0#5 ++ sideB ++ 0#1 ++ fullNormalCode (b.extractLsb' 0 3)
  else
    sideA ++ 0#1 ++ shortCode (a.extractLsb' 0 3) ++ sideB ++ 0#1 ++ shortCode (b.extractLsb' 0 3)

/-- The stores of `translate_legacy(c)`: DMACR replaced whole, the flags written (R151, R158). -/
def storeTranslation (c : Chan) (s : State) : State :=
  let a := s.dtcr c .subA
  let b := s.dtcr c .subB
  s.setChan c { (s.chan c).withLegacyFlags a b with dmacr := legacyDmacr a b }

/-- `translate_legacy(c)`: the stores, then an Immediate start attempt (R151, R159). -/
def translateLegacy (c : Chan) (s : State) : Proc Bool :=
  attemptStart c .immediate (storeTranslation c s)

/-- Both legacy enable bits of channel `c` are set (R150). -/
def bothLegacyEnabled (c : Chan) (s : State) : Bool :=
  (s.dtcr c .subA).getLsbD 7 && (s.dtcr c .subB).getLsbD 7

/-- A write to a DTCR register: store, then translate where both enable bits are set after the store
(41_channel_registers.md R139, R145). -/
def writeDtcr (c : Chan) (u : Sub) (data : Byte) (s : State) : Proc Response :=
  let t := s.setDtcr c u data
  if bothLegacyEnabled c t then (translateLegacy c t).bind fun _ t' => .ret .none t'
  else .ret .none t

end Sys2Proof.Machine
end

