-- ==== Sys2Proof/Machine/ChannelRegs.lean ====
section
/-! DEFINITION. The channel register transactions (41_channel_registers.md). Of these only the DTCR
writes can start a transfer (R146). -/

namespace Sys2Proof.Machine

/-! ### Memory address registers -/

/-- RD.MARAH (R120). -/
def execRdMarah (c : Chan) (s : State) : Answer :=
  complete s (.word (zext16 (marHigh (s.mar c .subA)))) s

/-- WR.MARAH (R121): bits 15:0 stay. -/
def execWrMarah (c : Chan) (data mask : Byte) (s : State) : Answer :=
  complete s .none (s.setMar c .subA (withMarHigh (s.mar c .subA) data mask))

/-- RD.MARAL (R122). -/
def execRdMaral (c : Chan) (s : State) : Answer :=
  complete s (.word (marLow (s.mar c .subA))) s

/-- WR.MARAL (R123): bits 23:16 stay. -/
def execWrMaral (c : Chan) (data mask : Half) (s : State) : Answer :=
  complete s .none (s.setMar c .subA (withMarLow (s.mar c .subA) data mask))

/-- RD.MARBH (R124). -/
def execRdMarbh (c : Chan) (s : State) : Answer :=
  complete s (.word (zext16 (marHigh (s.mar c .subB)))) s

/-- WR.MARBH (R125): bits 15:0 stay. -/
def execWrMarbh (c : Chan) (data mask : Byte) (s : State) : Answer :=
  complete s .none (s.setMar c .subB (withMarHigh (s.mar c .subB) data mask))

/-- RD.MARBL (R126). -/
def execRdMarbl (c : Chan) (s : State) : Answer :=
  complete s (.word (marLow (s.mar c .subB))) s

/-- WR.MARBL (R127): bits 23:16 stay. -/
def execWrMarbl (c : Chan) (data mask : Half) (s : State) : Answer :=
  complete s .none (s.setMar c .subB (withMarLow (s.mar c .subB) data mask))

/-! ### I/O address registers -/

/-- RD.IOARA (R128). -/
def execRdIoara (c : Chan) (s : State) : Answer :=
  complete s (.word (s.ioar c .subA)) s

/-- WR.IOARA (R129): full width only. -/
def execWrIoara (c : Chan) (data mask : Half) (s : State) : Answer :=
  withFullMask s mask (finish (.ret .none (s.setIoar c .subA data)))

/-- RD.IOARA8 (R140). -/
def execRdIoara8 (c : Chan) (s : State) : Answer :=
  complete s (.word (zext16 (ioarLow (s.ioar c .subA)))) s

/-- WR.IOARA8 (R141): the high byte becomes `0xFF`. -/
def execWrIoara8 (c : Chan) (data mask : Byte) (s : State) : Answer :=
  withFullMask s mask (finish (.ret .none (s.setIoar c .subA (ioarFromAlias data))))

/-- RD.IOARB (R130). -/
def execRdIoarb (c : Chan) (s : State) : Answer :=
  complete s (.word (s.ioar c .subB)) s

/-- WR.IOARB (R131): full width only. -/
def execWrIoarb (c : Chan) (data mask : Half) (s : State) : Answer :=
  withFullMask s mask (finish (.ret .none (s.setIoar c .subB data)))

/-- RD.IOARB8 (R142). -/
def execRdIoarb8 (c : Chan) (s : State) : Answer :=
  complete s (.word (zext16 (ioarLow (s.ioar c .subB)))) s

/-- WR.IOARB8 (R143): the high byte becomes `0xFF`. -/
def execWrIoarb8 (c : Chan) (data mask : Byte) (s : State) : Answer :=
  withFullMask s mask (finish (.ret .none (s.setIoar c .subB (ioarFromAlias data))))

/-! ### Count registers -/

/-- RD.ETCRA (R132). -/
def execRdEtcra (c : Chan) (s : State) : Answer :=
  complete s (.word (s.etcr c .subA)) s

/-- WR.ETCRA (R133). -/
def execWrEtcra (c : Chan) (data mask : Half) (s : State) : Answer :=
  complete s .none (s.setEtcr c .subA (merge (s.etcr c .subA) data mask))

/-- RD.ETCRB (R134). -/
def execRdEtcrb (c : Chan) (s : State) : Answer :=
  complete s (.word (s.etcr c .subB)) s

/-- WR.ETCRB (R135). -/
def execWrEtcrb (c : Chan) (data mask : Half) (s : State) : Answer :=
  complete s .none (s.setEtcr c .subB (merge (s.etcr c .subB) data mask))

/-! ### Control register -/

/-- RD.DMACR (R136). -/
def execRdDmacr (c : Chan) (s : State) : Answer :=
  complete s (.word (s.dmacr c)) s

/-- WR.DMACR (R137): it attempts no start. -/
def execWrDmacr (c : Chan) (data mask : Half) (s : State) : Answer :=
  complete s .none (s.setDmacr c (merge (s.dmacr c) data mask))

/-! ### Legacy control registers -/

/-- RD.DTCRA (R138). -/
def execRdDtcra (c : Chan) (s : State) : Answer :=
  complete s (.word (zext16 (s.dtcr c .subA))) s

/-- WR.DTCRA (R139): full width only; translates where both legacy enable bits are then set. -/
def execWrDtcra (c : Chan) (data mask : Byte) (s : State) : Answer :=
  withFullMask s mask (finish (writeDtcr c .subA data s))

/-- RD.DTCRB (R144). -/
def execRdDtcrb (c : Chan) (s : State) : Answer :=
  complete s (.word (zext16 (s.dtcr c .subB))) s

/-- WR.DTCRB (R145): full width only; translates where both legacy enable bits are then set. -/
def execWrDtcrb (c : Chan) (data mask : Byte) (s : State) : Answer :=
  withFullMask s mask (finish (writeDtcr c .subB data s))

end Sys2Proof.Machine
end

