-- ==== Sys2Proof/Machine/Completion.lean ====
section
/-! DEFINITION. The completion handler: `last_unit` (44_completion.md R190) and `transfer_done`
(R191 to R194). -/

namespace Sys2Proof.Machine

/-- `last_unit(c, s)` (R190). -/
def lastUnit (c : Chan) (u : Sub) (s : State) : State := driveEnd c u true s

/-- The one-shot completion (R192, R194): submodule `e`'s enable bit in the channel, in the
block-control word and in its legacy register are cleared; if its interrupt is enabled, `Irq` with
the number of the notified submodule `u` (R195, R97). -/
def retire (c : Chan) (e u : Sub) (s : State) : State :=
  let s1 := s.setDte c (clearBit (s.dte c) e.toNat)
  let s2 := clearEnable (packedId c e) s1
  let s3 := s2.setDtcr c e (clearBit (s2.dtcr c e) 7)
  if flagBit (s3.chan c).dtie e then s3.emit (.irq (Config.irqBase c + u.toNat)) else s3

/-- `transfer_done(c, s)` (R191): the end signal, the in-flight bit, then by the current mode the
full-address completion (R192, of submodule 0's bits), the repeat-mode reload (R193) or the
short-address one-shot (R194). -/
def transferDone (c : Chan) (u : Sub) (s : State) : Proc Unit :=
  let t := (driveEnd c u false s).setInflight c u false
  if (t.chan c).fae then
    if blockBit (t.dmacr c) then .raise .blockModeDone t
    else .ret () (retire c .subA u t)
  else if isRepeat (t.chan c) u then start c u t
  else .ret () (retire c u u t)

end Sys2Proof.Machine
end

