-- ==== Sys2Proof/Machine/Controller.lean ====
section
/-! DEFINITION. The Controller's transactions (40_controller.md) and RESET (70_reset_and_hazards.md
R220). -/

namespace Sys2Proof.Machine

/-- RD.DMABCR (R100). -/
def execRdDmabcr (s : State) : Answer := complete s (.word s.dmabcr) s

/-- WR.DMABCR (R101): merge, then for channel 0 and then channel 1 derive the flags and attempt an
Immediate start. -/
def execWrDmabcr (data mask : Half) (s : State) : Answer :=
  gated s <| finish <|
    (attemptStart .ch0 .immediate (deriveFlags .ch0 { s with dmabcr := merge s.dmabcr data mask })).bind
      fun _ t => (attemptStart .ch1 .immediate (deriveFlags .ch1 t)).bind fun _ t' => .ret .none t'

/-- RD.DMAWER (R102). -/
def execRdDmawer (s : State) : Answer := complete s (.word (zext16 s.dmawer)) s

/-- WR.DMAWER (R103). -/
def execWrDmawer (data mask : Byte) (s : State) : Answer :=
  withFullMask s mask (finish (.ret .none { s with dmawer := data }))

/-- RESET (R220): served in every state, also while halted. -/
def execReset (s : State) : Answer := .next (resetBlock s)

/-- TRIG (R104): both channels are always evaluated, channel 0 first; the response is their OR. -/
def execTrig (v : Half) (s : State) : Answer :=
  gated s <| finish <|
    (attemptStart .ch0 (causeOf v) s).bind fun r0 t =>
      (attemptStart .ch1 (causeOf v) t).bind fun r1 t' => .ret (.bit (r0 || r1)) t'

/-- The report of line `c` as asserted (R105): a level attempt, then on a rising transition an edge
attempt. -/
def reportAsserted (c : Chan) (s : State) : Proc Unit :=
  (attemptStart c .level s).bind fun _ t =>
    if s.dreqPrev c then .ret () t
    else (attemptStart c .edge t).bind fun _ t' => .ret () t'

/-- DREQ (R105): an unsupported line is ignored (60_exceptions.md R204); the new level is recorded
last. -/
def execDreq (l : Byte) (a : Bool) (s : State) : Answer :=
  gated s <|
    match lineChan l with
    | none => .next { s with outcome := .ignored }
    | some c => finish ((if a then reportAsserted c s else .ret () s).bind fun _ t => .ret .none (t.setDreqPrev c a))

/-- CLRDTE (R106): the bit of the block-control word alone. -/
def execClrdte (id : Half) (s : State) : Answer :=
  withId s id fun i => finish (.ret .none (clearEnable i s))

/-- LAST (R107). -/
def execLast (id : Half) (s : State) : Answer :=
  withId s id fun i => finish (.ret .none (lastUnit (idChan i) (idSub i) s))

/-- DONE (R108). -/
def execDone (id : Half) (s : State) : Answer :=
  withId s id fun i => finish ((transferDone (idChan i) (idSub i) s).bind fun _ t => .ret .none t)

end Sys2Proof.Machine
end

