-- ==== Sys2Proof/Machine/Dispatch.lean ====
section
/-! DEFINITION. One arm per transaction, each one call of its meaning. -/

namespace Sys2Proof.Machine

def exec (i : Instr) (s : State) : Host.Outcome State Fault Refusal :=
  match i with
  | .rdDmabcr => Sys2Proof.Machine.execRdDmabcr s
  | .wrDmabcr data mask => Sys2Proof.Machine.execWrDmabcr data mask s
  | .rdDmawer => Sys2Proof.Machine.execRdDmawer s
  | .wrDmawer data mask => Sys2Proof.Machine.execWrDmawer data mask s
  | .rdMarah c => Sys2Proof.Machine.execRdMarah c s
  | .wrMarah c data mask => Sys2Proof.Machine.execWrMarah c data mask s
  | .rdMaral c => Sys2Proof.Machine.execRdMaral c s
  | .wrMaral c data mask => Sys2Proof.Machine.execWrMaral c data mask s
  | .rdIoara c => Sys2Proof.Machine.execRdIoara c s
  | .wrIoara c data mask => Sys2Proof.Machine.execWrIoara c data mask s
  | .rdEtcra c => Sys2Proof.Machine.execRdEtcra c s
  | .wrEtcra c data mask => Sys2Proof.Machine.execWrEtcra c data mask s
  | .rdMarbh c => Sys2Proof.Machine.execRdMarbh c s
  | .wrMarbh c data mask => Sys2Proof.Machine.execWrMarbh c data mask s
  | .rdMarbl c => Sys2Proof.Machine.execRdMarbl c s
  | .wrMarbl c data mask => Sys2Proof.Machine.execWrMarbl c data mask s
  | .rdIoarb c => Sys2Proof.Machine.execRdIoarb c s
  | .wrIoarb c data mask => Sys2Proof.Machine.execWrIoarb c data mask s
  | .rdEtcrb c => Sys2Proof.Machine.execRdEtcrb c s
  | .wrEtcrb c data mask => Sys2Proof.Machine.execWrEtcrb c data mask s
  | .rdDmacr c => Sys2Proof.Machine.execRdDmacr c s
  | .wrDmacr c data mask => Sys2Proof.Machine.execWrDmacr c data mask s
  | .rdDtcra c => Sys2Proof.Machine.execRdDtcra c s
  | .wrDtcra c data mask => Sys2Proof.Machine.execWrDtcra c data mask s
  | .rdDtcrb c => Sys2Proof.Machine.execRdDtcrb c s
  | .wrDtcrb c data mask => Sys2Proof.Machine.execWrDtcrb c data mask s
  | .rdIoara8 c => Sys2Proof.Machine.execRdIoara8 c s
  | .wrIoara8 c data mask => Sys2Proof.Machine.execWrIoara8 c data mask s
  | .rdIoarb8 c => Sys2Proof.Machine.execRdIoarb8 c s
  | .wrIoarb8 c data mask => Sys2Proof.Machine.execWrIoarb8 c data mask s
  | .reset => Sys2Proof.Machine.execReset s
  | .trig v => Sys2Proof.Machine.execTrig v s
  | .dreq l a => Sys2Proof.Machine.execDreq l a s
  | .clrdte id => Sys2Proof.Machine.execClrdte id s
  | .last id => Sys2Proof.Machine.execLast id s
  | .done id => Sys2Proof.Machine.execDone id s

end Sys2Proof.Machine
end

