-- ==== Sys2Proof/Machine/Step.lean ====
section
/-! DEFINITION. One step: the service of the oldest item that has arrived (00_scope.md R8). -/

namespace Sys2Proof.Machine

/-- One step. With nothing there the block is idle (R8, R45). A transaction is taken from `inbox`,
decoded, and executed; a reserved word is refused before the gate (R205). A bus master's write is
applied between transactions (R33). -/
def step (s : State) : Host.Outcome State Fault Refusal :=
  match s.inbox with
  | [] => .next s
  | .transaction w :: rest =>
    match decode w with
    | .instr i => exec i { s with inbox := rest }
    | .reservedOpcode => .refused .reservedOpcode
  | .busMaster id p :: rest => serveBusMaster id p { s with inbox := rest }

/-- The state with a numbered transaction as the next to be served (log 1). -/
def State.withFetchWord (s : State) (nbits w : Nat) : State := placeWord (tableWord nbits w) s

end Sys2Proof.Machine
end

