-- ==== Sys2Proof/Safety.lean ====
section
/-! DEFINITION. What claims about runs speak of: the phase of a submodule (10_state.md R40), a run
without the restart hazard (R36, R223) and without a fatal, the duties of the bus master that claims
may take as premises (70_reset_and_hazards.md R231), what an Immediate start attempt does to a whole
channel, the invariant of the block, and the parts of the state that no rule reads. -/

namespace Sys2Proof.Safety

open Sys2Proof.Machine

/-- The phases of a submodule (R40). -/
inductive Phase where
  | unused
  | off
  | primed
  | running
  | lastUnit
deriving DecidableEq, Repr

/-- The enable bit that counts for a submodule: in full-address mode submodule 0's (R40). -/
def enabledAs (s : State) (c : Chan) (u : Sub) : Bool :=
  flagBit (s.dte c) (if (s.chan c).fae then .subA else u)

/-- The condition of a phase, row by row of R40's table (the rows are not exclusive). -/
def inPhase (p : Phase) (s : State) (c : Chan) (u : Sub) : Bool :=
  match p with
  | .unused => (s.chan c).fae && u == .subB
  | .off => !enabledAs s c u && !s.inflight c u
  | .primed => s.inflight c u && (s.ts c u).suspended
  | .running => s.inflight c u && !(s.ts c u).suspended
  | .lastUnit => s.inflight c u && !(s.ts c u).autoreq && (s.chan c).tend

/-- No restart in flight has happened since reset (R36, R223), and no fatal (R37). -/
def clean (s : State) : Bool := !s.hazard && !s.halted

/-- Duty (a) of the bus master for the next transaction: LAST and DONE only for a submodule in flight
(R231). -/
def dutiful (i : Instr) (s : State) : Bool :=
  match i with
  | .last id => s.inflight (idChan (idField id)) (idSub (idField id))
  | .done id => s.inflight (idChan (idField id)) (idSub (idField id))
  | _ => true

/-! ### An Immediate start attempt, seen from a whole channel -/

/-- The submodules an Immediate attempt starts (R171, R172): A by `dte[0]` in both modes; B by `dte[1]`
in short-address mode alone. -/
def startsOnImmediate (ch : Channel) : Sub → Bool
  | .subA => ch.dte.getLsbD 0
  | .subB => !ch.fae && ch.dte.getLsbD 1

/-- The channels on which every start attempt is fatal (R171, R201): full-address mode, `dte[0]` set,
block bit set. -/
def faultsOnAttempt (ch : Channel) : Bool := ch.fae && ch.dte.getLsbD 0 && ch.dmacr.getLsbD 11

/-- The channels on which a request event has an effect if its code matches (R171, R172). -/
def listens (ch : Channel) : Bool := if ch.fae then ch.dte.getLsbD 0 else ch.dte != 0b00#2

/-- The submodule whose suspension a matching request lifts (R171, R172). -/
def listener (ch : Channel) : Sub := if ch.fae then .subA else .subB

/-- A submodule after an Immediate attempt on its channel: rebuilt and in flight where it started. -/
def armedSub (ch : Channel) (u : Sub) : Submodule :=
  if startsOnImmediate ch u then
    { ch.sub u with
      ts := if ch.fae then fullTransfer ch (ch.sub u).ts else shortTransfer ch u (ch.sub u)
      inflight := true }
  else ch.sub u

/-- A channel after an Immediate attempt. -/
def armed (ch : Channel) : Channel := { ch with subA := armedSub ch .subA, subB := armedSub ch .subB }

/-- The `Handoff` events of an Immediate attempt on channel `c`, B's first and A's last (R172, R184). -/
def handoffsOf (c : Chan) (ch : Channel) : List Event :=
  (if startsOnImmediate ch .subB then [.handoff (packedId c .subB)] else []) ++
  (if startsOnImmediate ch .subA then [.handoff (packedId c .subA)] else [])

/-- An Immediate attempt restarts a submodule in flight (R36, R223). -/
def restartsInFlight (ch : Channel) : Bool :=
  (startsOnImmediate ch .subA && ch.subA.inflight) || (startsOnImmediate ch .subB && ch.subB.inflight)

/-- The state after an Immediate attempt on channel `c` that is not fatal. -/
def afterImmediate (c : Chan) (s : State) : State :=
  { s.setChan c (armed (s.chan c)) with
    hazard := s.hazard || restartsInFlight (s.chan c)
    out := s.out ++ handoffsOf c (s.chan c) }

/-! ### The invariant of the block -/

/-- The level of a channel's transfer-end line that a trace shows: that of its last `End` event, 0
before any (R34, R38). -/
def endLevel (c : Chan) (out : List Event) : Bool :=
  out.foldl (fun level e => match e with
    | .endSignal c' b => if c' = c then b else level
    | _ => level) false

/-- An event is a `Fatal`. -/
def isFatal : Event → Bool
  | .fatal _ => true
  | .handoff _ => false
  | .endSignal _ _ => false
  | .irq _ => false

/-- The invariant: identifiers are the constants of R32; each transfer-end line is at the level last
reported (R34); whatever is in flight was handed over since reset (R35); while not halted no fatal was
reported, and a halted block reported one, last, which is not the unreachable reason 2 (R201 to
R203). -/
structure Inv (s : State) : Prop where
  ids : ∀ c u, (s.ts c u).id = packedId c u
  ends : ∀ c, (s.chan c).tend = endLevel c s.out
  handed : ∀ c u, s.inflight c u = true → Event.handoff (packedId c u) ∈ s.out
  running : s.halted = false → ∀ e ∈ s.out, isFatal e = false
  stopped : s.halted = true → ∃ l r, s.out = l ++ [Event.fatal r] ∧ r ≠ .blockModeStart ∧ ∀ e ∈ l, isFatal e = false

/-! ### What no rule reads -/

/-- An answer with its next state changed. -/
def mapNext (f : State → State) : Answer → Answer
  | .next s => .next (f s)
  | .fault r => .fault r
  | .refused r => .refused r

/-- A TransferState with the four fields that the bus master may write (R33) blotted out. -/
def hideProgressTs (t : TransferState) : TransferState :=
  { t with source := 0#24, dest := 0#24, count := 0#17, suspended := false }

/-- A channel with those fields of both TransferStates blotted out. -/
def hideProgressChan (ch : Channel) : Channel :=
  { ch with
    subA := { ch.subA with ts := hideProgressTs ch.subA.ts }
    subB := { ch.subB with ts := hideProgressTs ch.subB.ts } }

/-- The state with those fields of every TransferState blotted out. -/
def hideProgress (s : State) : State :=
  { s with ch0 := hideProgressChan s.ch0, ch1 := hideProgressChan s.ch1 }

/-- The state with the auxiliary flags, which no rule reads (R30), set to given values. -/
def withSae (f : Chan → Bool) (s : State) : State :=
  { s with ch0 := { s.ch0 with sae := f .ch0 }, ch1 := { s.ch1 with sae := f .ch1 } }

end Sys2Proof.Safety
end

