-- ==== Sys2Proof/Certificates/Slice0/Obligations.lean ====
section
/-! DEFINITION. The statements for the provers. Every one is about every state it admits, reached from
reset or not. The block has no memory (20_memory.md R50), so a frame is told on the state alone. Frames
are told in one of two ways: the changed element put back gives the old state again (with the new
outcome), or the unchanged elements are listed. -/

open Sys2Proof Sys2Proof.Machine Sys2Proof.Safety

namespace Sys2Proof.Claims

/-- The packed identifier of a submodule as the operand of an event (R89). -/
def idOperand (c : Chan) (u : Sub) : Half := BitVec.ofNat 16 (2 * c.toNat + u.toNat)

/-- The line identifier of channel `c`'s request line (R88). -/
def lineOperand (c : Chan) : Byte := BitVec.ofNat 8 c.toNat

/-- Every word with operation code `op` decodes to what `f` makes of its two other fields (R70). -/
def encodes (op : Nat) (f : Half → Half → Instr) : Prop :=
  ∀ data mask : Half, decode (packWord (BitVec.ofNat 8 op) data mask) = .instr (f data mask)

/-- The operation code of a channel register read (R74). -/
def readCode (c : Chan) (r : Nat) : Nat := 0x20 + 0x10 * c.toNat + r

/-- The operation code of a channel register write (R74). -/
def writeCode (c : Chan) (r : Nat) : Nat := 0x60 + 0x10 * c.toNat + r

/-- A state with the outcome of a transaction that went well and answered `r`. -/
def answered (r : Response) (s : State) : State := { s with outcome := .ok r }

/-- The Controller's elements beside the block-control word, the line levels and the model's own
`inbox` and `resets`. -/
def sameLines (s t : State) : Prop :=
  t.dmawer = s.dmawer ∧ t.dreqPrev0 = s.dreqPrev0 ∧ t.dreqPrev1 = s.dreqPrev1 ∧ t.inbox = s.inbox ∧
  t.resets = s.resets

/-- What a transaction on one channel that goes well does not write; `dmabcr`, `hazard`, `out` and
`outcome` are told apart. -/
def sameController (s t : State) : Prop := sameLines s t ∧ t.halted = s.halted

/-- What a completion leaves of its channel: mode, selectors, interrupt enables, control word, and both
submodules' address and count registers. -/
def sameRegisters (c : Chan) (s t : State) : Prop :=
  (t.chan c).fae = (s.chan c).fae ∧ (t.chan c).sae = (s.chan c).sae ∧ (t.chan c).dta = (s.chan c).dta ∧
  (t.chan c).dtie = (s.chan c).dtie ∧ (t.chan c).dmacr = (s.chan c).dmacr ∧
  ∀ u, t.mar c u = s.mar c u ∧ t.ioar c u = s.ioar c u ∧ t.etcr c u = s.etcr c u

/-- The `End(c, 0)` of a completion, absent for an auto-request transfer (R191). -/
def endEvents (c : Chan) (u : Sub) (s : State) : List Event :=
  if (s.ts c u).autoreq then [] else [.endSignal c false]

/-- The block-control word after a write, bits outside the mask kept (R53). -/
def mergedWord (s : State) (data mask : Half) : Half := (s.dmabcr &&& ~~~mask) ||| (data &&& mask)

/-- Channel `c` with its flags taken from a block-control word (R79). -/
def rederived (c : Chan) (w : Half) (s : State) : Channel := (s.chan c).withSlice c w

/-- A channel whose listening submodule is no longer suspended (R171, R172). -/
def lifted (ch : Channel) : Channel :=
  ch.setSub (listener ch) { ch.sub (listener ch) with ts := { (ch.sub (listener ch)).ts with suspended := false } }

/-- The signed step of a moving side: magnitude 2 or 1 by the unit size, negative to decrement (R183). -/
def signedStep (wide down : Bool) : Int := (if down then -1 else 1) * (if wide then 2 else 1)

/-- The unit count of a 16-bit count register: 0 stands for `0x10000` (R182). -/
def unitCount (e : Half) : Nat := if e.toNat = 0 then 0x10000 else e.toNat

/-- The request codes of R157, by the 3-bit field. -/
def shortTable : List Nat := [0b1000, 0b1001, 0b1010, 0b1011, 0b0100, 0b0101, 0b0010, 0b0011]

/-- The request codes of R155, by the 3-bit field. -/
def fullTable : List Nat := [0b0111, 0, 0b0110, 0, 0, 0, 0b0010, 0]

/-- The request codes of R156, by the 3-bit field. -/
def blockTable : List Nat := [0b1000, 0b1001, 0b1010, 0b1011, 0, 0, 0b0010, 0]

/-- A write to the DTCR register of submodule `u`, full width. -/
def dtcrWrite (c : Chan) : Sub → Byte → Instr
  | .subA, d => .wrDtcra c d 0xFF#8
  | .subB, d => .wrDtcrb c d 0xFF#8

/-- The transactions that write an address register (R121, R123, R125, R127). -/
def writesMar (i : Instr) (c : Chan) (u : Sub) : Bool :=
  match i, u with
  | .wrMarah d _ _, .subA => d == c
  | .wrMaral d _ _, .subA => d == c
  | .wrMarbh d _ _, .subB => d == c
  | .wrMarbl d _ _, .subB => d == c
  | .reset, _ => true
  | _, _ => false

/-- The transactions that write an I/O address register (R129, R131, R141, R143). -/
def writesIoar (i : Instr) (c : Chan) (u : Sub) : Bool :=
  match i, u with
  | .wrIoara d _ _, .subA => d == c
  | .wrIoara8 d _ _, .subA => d == c
  | .wrIoarb d _ _, .subB => d == c
  | .wrIoarb8 d _ _, .subB => d == c
  | .reset, _ => true
  | _, _ => false

/-- The transactions that write a count register (R133, R135). -/
def writesEtcr (i : Instr) (c : Chan) (u : Sub) : Bool :=
  match i, u with
  | .wrEtcra d _ _, .subA => d == c
  | .wrEtcrb d _ _, .subB => d == c
  | .reset, _ => true
  | _, _ => false

/-- The transactions that may change channel `c`: those addressed to it, and those that reach both. -/
def mayTouch (i : Instr) (c : Chan) : Bool :=
  match i with
  | .wrDmabcr _ _ => true
  | .reset => true
  | .trig _ => true
  | .dreq l _ => l == lineOperand c
  | .last id => id == idOperand c .subA || id == idOperand c .subB
  | .done id => id == idOperand c .subA || id == idOperand c .subB
  | .wrMarah d _ _ => d == c
  | .wrMaral d _ _ => d == c
  | .wrIoara d _ _ => d == c
  | .wrEtcra d _ _ => d == c
  | .wrMarbh d _ _ => d == c
  | .wrMarbl d _ _ => d == c
  | .wrIoarb d _ _ => d == c
  | .wrEtcrb d _ _ => d == c
  | .wrDmacr d _ _ => d == c
  | .wrDtcra d _ _ => d == c
  | .wrDtcrb d _ _ => d == c
  | .wrIoara8 d _ _ => d == c
  | .wrIoarb8 d _ _ => d == c
  | _ => false

/-- The transactions that run the start protocol or a reload (R146, R209). -/
def mayHandOff : Instr → Bool
  | .wrDmabcr _ _ => true
  | .wrDtcra _ _ _ => true
  | .wrDtcrb _ _ _ => true
  | .trig _ => true
  | .done _ => true
  | _ => false

/-- The transactions whose start attempt can be fatal (R201, reason 1). -/
def mayAttempt : Instr → Bool
  | .wrDmabcr _ _ => true
  | .wrDtcra _ _ _ => true
  | .wrDtcrb _ _ _ => true
  | .trig _ => true
  | .dreq _ _ => true
  | _ => false

/-- DONE, the one transaction that completes a transfer. -/
def isDone : Instr → Bool
  | .done _ => true
  | _ => false

/-- LAST and DONE, the transactions that drive the transfer-end line (R207). -/
def drivesEnd : Instr → Bool
  | .last _ => true
  | .done _ => true
  | _ => false

end Sys2Proof.Claims

open Sys2Proof.Claims

/-! ### Encoding -/

/-- R70 to R75: no operand bit of any transaction is dropped by its encoding. -/
def Obligations.DecodeOfEncode : Prop := ∀ i : Instr, decode (encode i) = .instr i

/-- The decoder reads a row's instruction exactly from the words of that row of spec/opcode_table.json. -/
def Obligations.DecodeFollowsOpcodeTable : Prop :=
  ∀ (w : TxWord) (row : OpcodeRow), row ∈ opcodeRows →
    (w &&& row.mask = row.pattern ↔ ∃ i, decode w = .instr i ∧ i.mnemonic = row.mnemonic)

/-- The reserved operation codes of R77, bit by bit. -/
def Obligations.ReservedOpcodesAreThoseOfTheTable : Prop :=
  ∀ w : TxWord, decode w = .reservedOpcode ↔
    (w.getLsbD 39 = false ∧ w.getLsbD 37 = false ∧ (w.getLsbD 36 = true ∨ 2 ≤ w.toNat / 2 ^ 32 % 16)) ∨
    (w.getLsbD 39 = false ∧ w.getLsbD 37 = true ∧ 13 ≤ w.toNat / 2 ^ 32 % 16) ∨
    (w.getLsbD 39 = true ∧ (w.toNat / 2 ^ 36 % 8 ≠ 0 ∨ 6 ≤ w.toNat / 2 ^ 32 % 16))

/-- Words written out from R72 to R74 decode to the transactions they stand for. -/
def Obligations.SampleWordsDecode : Prop :=
  decode 0x40003300FF#40 = .instr (.wrDmabcr 0x0033#16 0x00FF#16) ∧
  decode 0x718000FFFF#40 = .instr (.wrMaral .ch1 0x8000#16 0xFFFF#16) ∧
  decode 0x67000800FF#40 = .instr (.wrEtcrb .ch0 0x0008#16 0x00FF#16) ∧
  decode 0x7900DE00FF#40 = .instr (.wrDtcra .ch1 0xDE#8 0xFF#8) ∧
  decode 0x2B00000000#40 = .instr (.rdIoara8 .ch0) ∧
  decode 0x81FFFD0000#40 = .instr (.trig 0xFFFD#16) ∧
  decode 0x8201000000#40 = .instr (.dreq 0#8 true) ∧
  decode 0x8500010000#40 = .instr (.done 1#16)

/-- R95: the two transactions that write a whole address register leave it holding the address. -/
def Obligations.PseudoAddressWriteStoresTheAddress : Prop :=
  ∀ (c : Chan) (a : Addr) (s : State), s.halted = false →
    (∃ i j t, expandPseudo (.wrMara c a) = [i, j] ∧ exec i s = .next t ∧
      exec j t = .next (answered .none (s.setMar c .subA a))) ∧
    (∃ i j t, expandPseudo (.wrMarb c a) = [i, j] ∧ exec i s = .next t ∧
      exec j t = .next (answered .none (s.setMar c .subB a)))

/-! ### One step, refusals, completion -/

/-- R8: a step at a state whose oldest item is a word that decodes to `i` is `exec i` on the state
without that item. -/
def Obligations.StepRunsTheDecodedTransaction : Prop :=
  ∀ (s : State) (w : TxWord) (rest : List Inbound) (i : Instr),
    s.inbox = .transaction w :: rest → decode w = .instr i → step s = exec i { s with inbox := rest }

/-- R8, R33 with logs 1 and 7: with nothing arrived the block stays as it is; a write of the bus master
to a TransferState in flight changes its four fields alone; to any other it is a breach. -/
def Obligations.StepServesTheBusMaster : Prop :=
  ∀ s : State,
    (s.inbox = [] → step s = .next s) ∧
    (∀ (c : Chan) (u : Sub) (p : Progress) (rest : List Inbound), s.inbox = .busMaster (packedId c u) p :: rest →
      (s.inflight c u = true → ∃ t, step s = .next t ∧
        (t.ts c u).source = p.source ∧ (t.ts c u).dest = p.dest ∧ (t.ts c u).count = p.count ∧
        (t.ts c u).suspended = p.suspended ∧
        t.setTs c u { t.ts c u with
          source := (s.ts c u).source, dest := (s.ts c u).dest, count := (s.ts c u).count
          suspended := (s.ts c u).suspended } = { s with inbox := rest }) ∧
      (s.inflight c u = false → step s = .fault (.busMasterBreach (packedId c u))))

/-- R205: the complete list of refusals, with the order of the tests. -/
def Obligations.RefusalsAreExactlyTheListed : Prop :=
  ∀ (s : State) (w : TxWord) (rest : List Inbound) (r : Refusal), s.inbox = .transaction w :: rest →
    (step s = .refused r ↔
      (r = .reservedOpcode ∧ decode w = .reservedOpcode) ∨
      ∃ i, decode w = .instr i ∧
        ((r = .halted ∧ s.halted = true ∧ i ≠ .reset) ∨
         (r = .idOutOfRange ∧ s.halted = false ∧ i.illFormed = some .idOutOfRange) ∨
         (r = .partialMaskOnFullWidth ∧ s.halted = false ∧ i.illFormed = some .partialMaskOnFullWidth)))

/-- R10, R200: a transaction has a next state exactly when it is RESET or the block runs and the operand
tests pass; none ends in a fault. -/
def Obligations.ExecCompletesExactlyWhenAllowed : Prop :=
  ∀ (i : Instr) (s : State),
    ((∃ t, exec i s = .next t) ↔ (i = .reset ∨ (s.halted = false ∧ i.WellFormed))) ∧ ∀ r, exec i s ≠ .fault r

/-- R37, R212: the only way out of `halted` is RESET. -/
def Obligations.OnlyResetLeavesHalted : Prop :=
  ∀ s t : State, s.halted = true → step s = .next t → t.halted = false →
    ∃ w rest, s.inbox = .transaction w :: rest ∧ decode w = .instr .reset

/-! ### Register reads -/

/-- R100, R102: the Controller's registers, read whole; nothing else changes. -/
def Obligations.ControllerReads : Prop :=
  encodes 0x00 (fun _ _ => .rdDmabcr) ∧ encodes 0x01 (fun _ _ => .rdDmawer) ∧
  ∀ s : State, s.halted = false →
    exec .rdDmabcr s = .next (answered (.word s.dmabcr) s) ∧
    exec .rdDmawer s = .next (answered (.word (0#8 ++ s.dmawer)) s)

/-- R120, R122, R124, R126: the two parts of an address register; nothing else changes. -/
def Obligations.AddressRegisterReads : Prop :=
  ∀ (c : Chan) (s : State), s.halted = false →
    encodes (readCode c 0) (fun _ _ => .rdMarah c) ∧ encodes (readCode c 1) (fun _ _ => .rdMaral c) ∧
    encodes (readCode c 4) (fun _ _ => .rdMarbh c) ∧ encodes (readCode c 5) (fun _ _ => .rdMarbl c) ∧
    exec (.rdMarah c) s = .next (answered (.word ((s.mar c .subA >>> 16).setWidth 16)) s) ∧
    exec (.rdMaral c) s = .next (answered (.word ((s.mar c .subA).setWidth 16)) s) ∧
    exec (.rdMarbh c) s = .next (answered (.word ((s.mar c .subB >>> 16).setWidth 16)) s) ∧
    exec (.rdMarbl c) s = .next (answered (.word ((s.mar c .subB).setWidth 16)) s)

/-- R128, R130, R140, R142: an I/O address register and its 8-bit view; nothing else changes. -/
def Obligations.IoAddressReads : Prop :=
  ∀ (c : Chan) (s : State), s.halted = false →
    encodes (readCode c 2) (fun _ _ => .rdIoara c) ∧ encodes (readCode c 6) (fun _ _ => .rdIoarb c) ∧
    encodes (readCode c 11) (fun _ _ => .rdIoara8 c) ∧ encodes (readCode c 12) (fun _ _ => .rdIoarb8 c) ∧
    exec (.rdIoara c) s = .next (answered (.word (s.ioar c .subA)) s) ∧
    exec (.rdIoarb c) s = .next (answered (.word (s.ioar c .subB)) s) ∧
    exec (.rdIoara8 c) s = .next (answered (.word (s.ioar c .subA &&& 0x00FF#16)) s) ∧
    exec (.rdIoarb8 c) s = .next (answered (.word (s.ioar c .subB &&& 0x00FF#16)) s)

/-- R132, R134, R136, R138, R144: count, control and legacy registers; nothing else changes. -/
def Obligations.CountAndControlReads : Prop :=
  ∀ (c : Chan) (s : State), s.halted = false →
    encodes (readCode c 3) (fun _ _ => .rdEtcra c) ∧ encodes (readCode c 7) (fun _ _ => .rdEtcrb c) ∧
    encodes (readCode c 8) (fun _ _ => .rdDmacr c) ∧ encodes (readCode c 9) (fun _ _ => .rdDtcra c) ∧
    encodes (readCode c 10) (fun _ _ => .rdDtcrb c) ∧
    exec (.rdEtcra c) s = .next (answered (.word (s.etcr c .subA)) s) ∧
    exec (.rdEtcrb c) s = .next (answered (.word (s.etcr c .subB)) s) ∧
    exec (.rdDmacr c) s = .next (answered (.word (s.dmacr c)) s) ∧
    exec (.rdDtcra c) s = .next (answered (.word (0#8 ++ s.dtcr c .subA)) s) ∧
    exec (.rdDtcrb c) s = .next (answered (.word (0#8 ++ s.dtcr c .subB)) s)

/-! ### Register writes -/

/-- R103: a full-width write stores; any other mask is refused. -/
def Obligations.WriteEnableWrites : Prop :=
  encodes 0x41 (fun data mask => .wrDmawer (data.setWidth 8) (mask.setWidth 8)) ∧
  ∀ (d m : Byte) (s : State), s.halted = false →
    exec (.wrDmawer d 0xFF#8) s = .next (answered .none { s with dmawer := d }) ∧
    (m ≠ 0xFF#8 → exec (.wrDmawer d m) s = .refused .partialMaskOnFullWidth)

/-- R121, R125, R58: the high part under the mask, bit by bit; bits 15:0 and everything else stay. -/
def Obligations.AddressHighWrites : Prop :=
  ∀ (c : Chan) (u : Sub) (i : Instr) (d m : Byte) (s : State), s.halted = false →
    (u = .subA ∧ i = .wrMarah c d m) ∨ (u = .subB ∧ i = .wrMarbh c d m) →
    encodes (writeCode c 0) (fun data mask => .wrMarah c (data.setWidth 8) (mask.setWidth 8)) ∧
    encodes (writeCode c 4) (fun data mask => .wrMarbh c (data.setWidth 8) (mask.setWidth 8)) ∧
    ∃ t, exec i s = .next t ∧
      (∀ k, k < 16 → (t.mar c u).getLsbD k = (s.mar c u).getLsbD k) ∧
      (∀ k, k < 8 → (t.mar c u).getLsbD (16 + k) = if m.getLsbD k then d.getLsbD k else (s.mar c u).getLsbD (16 + k)) ∧
      t.setMar c u (s.mar c u) = answered .none s

/-- R123, R127, R58: the low part under the mask, bit by bit; bits 23:16 and everything else stay. -/
def Obligations.AddressLowWrites : Prop :=
  ∀ (c : Chan) (u : Sub) (i : Instr) (d m : Half) (s : State), s.halted = false →
    (u = .subA ∧ i = .wrMaral c d m) ∨ (u = .subB ∧ i = .wrMarbl c d m) →
    encodes (writeCode c 1) (fun data mask => .wrMaral c data mask) ∧
    encodes (writeCode c 5) (fun data mask => .wrMarbl c data mask) ∧
    ∃ t, exec i s = .next t ∧
      (∀ k, k < 16 → (t.mar c u).getLsbD k = if m.getLsbD k then d.getLsbD k else (s.mar c u).getLsbD k) ∧
      (∀ k, k < 8 → (t.mar c u).getLsbD (16 + k) = (s.mar c u).getLsbD (16 + k)) ∧
      t.setMar c u (s.mar c u) = answered .none s

/-- R129, R131: a full-width write stores; any other mask is refused. -/
def Obligations.IoAddressWrites : Prop :=
  ∀ (c : Chan) (d m : Half) (s : State), s.halted = false →
    encodes (writeCode c 2) (fun data mask => .wrIoara c data mask) ∧
    encodes (writeCode c 6) (fun data mask => .wrIoarb c data mask) ∧
    exec (.wrIoara c d 0xFFFF#16) s = .next (answered .none (s.setIoar c .subA d)) ∧
    exec (.wrIoarb c d 0xFFFF#16) s = .next (answered .none (s.setIoar c .subB d)) ∧
    (m ≠ 0xFFFF#16 → exec (.wrIoara c d m) s = .refused .partialMaskOnFullWidth ∧
      exec (.wrIoarb c d m) s = .refused .partialMaskOnFullWidth)

/-- R141, R143: the alias stores the byte under a high byte of `0xFF`; a partial mask is refused. -/
def Obligations.IoAliasWrites : Prop :=
  ∀ (c : Chan) (d m : Byte) (s : State), s.halted = false →
    encodes (writeCode c 11) (fun data mask => .wrIoara8 c (data.setWidth 8) (mask.setWidth 8)) ∧
    encodes (writeCode c 12) (fun data mask => .wrIoarb8 c (data.setWidth 8) (mask.setWidth 8)) ∧
    exec (.wrIoara8 c d 0xFF#8) s = .next (answered .none (s.setIoar c .subA (0xFF00#16 ||| d.setWidth 16))) ∧
    exec (.wrIoarb8 c d 0xFF#8) s = .next (answered .none (s.setIoar c .subB (0xFF00#16 ||| d.setWidth 16))) ∧
    (m ≠ 0xFF#8 → exec (.wrIoara8 c d m) s = .refused .partialMaskOnFullWidth ∧
      exec (.wrIoarb8 c d m) s = .refused .partialMaskOnFullWidth)

/-- R133, R135: a count register under the mask, bit by bit; everything else stays. -/
def Obligations.CountWrites : Prop :=
  ∀ (c : Chan) (u : Sub) (i : Instr) (d m : Half) (s : State), s.halted = false →
    (u = .subA ∧ i = .wrEtcra c d m) ∨ (u = .subB ∧ i = .wrEtcrb c d m) →
    encodes (writeCode c 3) (fun data mask => .wrEtcra c data mask) ∧
    encodes (writeCode c 7) (fun data mask => .wrEtcrb c data mask) ∧
    ∃ t, exec i s = .next t ∧
      (∀ k, k < 16 → (t.etcr c u).getLsbD k = if m.getLsbD k then d.getLsbD k else (s.etcr c u).getLsbD k) ∧
      t.setEtcr c u (s.etcr c u) = answered .none s

/-- R137: the control word under the mask, bit by bit; it starts nothing and changes nothing else. -/
def Obligations.ControlWrites : Prop :=
  ∀ (c : Chan) (d m : Half) (s : State), s.halted = false →
    encodes (writeCode c 8) (fun data mask => .wrDmacr c data mask) ∧
    ∃ t, exec (.wrDmacr c d m) s = .next t ∧
      (∀ k, k < 16 → (t.dmacr c).getLsbD k = if m.getLsbD k then d.getLsbD k else (s.dmacr c).getLsbD k) ∧
      t.setDmacr c (s.dmacr c) = answered .none s

/-! ### The block-control word -/

/-- R101: where no channel faults, both channels take their flags from the merged word and every
submodule then enabled is started, channel 0's before channel 1's; R75: all bits of `data` and `mask`
are operands. -/
def Obligations.BlockControlWriteStarts : Prop :=
  encodes 0x40 (fun data mask => .wrDmabcr data mask) ∧
  ∀ (d m : Half) (s : State), s.halted = false →
    faultsOnAttempt (rederived .ch0 (mergedWord s d m) s) = false →
    faultsOnAttempt (rederived .ch1 (mergedWord s d m) s) = false →
    ∃ t, exec (.wrDmabcr d m) s = .next t ∧ t.outcome = .ok .none ∧ t.dmabcr = mergedWord s d m ∧
      (∀ c, t.chan c = armed (rederived c (mergedWord s d m) s)) ∧
      t.out = s.out ++ handoffsOf .ch0 (rederived .ch0 (mergedWord s d m) s) ++
        handoffsOf .ch1 (rederived .ch1 (mergedWord s d m) s) ∧
      t.hazard = (s.hazard || restartsInFlight (rederived .ch0 (mergedWord s d m) s) ||
        restartsInFlight (rederived .ch1 (mergedWord s d m) s)) ∧
      sameController s t

/-- R53 for DMABCR, R29, R79: after every write that is not fatal each bit of the word is the data's
where the mask is set and its own elsewhere, and the flags of both channels equal their slices. -/
def Obligations.FlagsFollowTheBlockControlWord : Prop :=
  ∀ (d m : Half) (s t : State), exec (.wrDmabcr d m) s = .next t →
    (∀ k, k < 16 → t.dmabcr.getLsbD k = if m.getLsbD k then d.getLsbD k else s.dmabcr.getLsbD k) ∧
    (t.halted = false → ∀ c,
      (t.chan c).fae = t.dmabcr.getLsbD (14 + c.toNat) ∧ (t.chan c).sae = t.dmabcr.getLsbD (12 + c.toNat) ∧
      ∀ u, flagBit (t.chan c).dta u = t.dmabcr.getLsbD (8 + 2 * c.toNat + u.toNat) ∧
        flagBit (t.chan c).dte u = t.dmabcr.getLsbD (4 + 2 * c.toNat + u.toNat) ∧
        flagBit (t.chan c).dtie u = t.dmabcr.getLsbD (2 * c.toNat + u.toNat))

/-- R101, R202: a fatal at channel 0 leaves channel 1 as it was, its flags not derived; a fatal at
channel 1 leaves channel 0's start done. -/
def Obligations.BlockControlWriteFatal : Prop :=
  ∀ (d m : Half) (s : State), s.halted = false →
    (faultsOnAttempt (rederived .ch0 (mergedWord s d m) s) = true →
      ∃ t, exec (.wrDmabcr d m) s = .next t ∧ t.outcome = .fatal .blockModeStartTest ∧ t.halted = true ∧
        t.dmabcr = mergedWord s d m ∧ t.ch0 = rederived .ch0 (mergedWord s d m) s ∧ t.ch1 = s.ch1 ∧
        t.out = s.out ++ [.fatal .blockModeStartTest] ∧ t.hazard = s.hazard ∧ sameLines s t) ∧
    (faultsOnAttempt (rederived .ch0 (mergedWord s d m) s) = false →
      faultsOnAttempt (rederived .ch1 (mergedWord s d m) s) = true →
      ∃ t, exec (.wrDmabcr d m) s = .next t ∧ t.outcome = .fatal .blockModeStartTest ∧ t.halted = true ∧
        t.dmabcr = mergedWord s d m ∧ t.ch0 = armed (rederived .ch0 (mergedWord s d m) s) ∧
        t.ch1 = rederived .ch1 (mergedWord s d m) s ∧
        t.out = s.out ++ handoffsOf .ch0 (rederived .ch0 (mergedWord s d m) s) ++ [.fatal .blockModeStartTest] ∧
        t.hazard = (s.hazard || restartsInFlight (rederived .ch0 (mergedWord s d m) s)) ∧ sameLines s t)

/-- R106: CLRDTE clears bit `4 + id` of the block-control word and nothing else, not the channel's
flag; an identifier above 3 is refused. -/
def Obligations.ClearEnableClearsOneBit : Prop :=
  encodes 0x83 (fun data _ => .clrdte data) ∧
  ∀ (id : Half) (s : State), s.halted = false →
    (id.toNat < 4 → ∃ t, exec (.clrdte id) s = .next t ∧
      (∀ k, k < 16 → t.dmabcr.getLsbD k = (s.dmabcr.getLsbD k && decide (k ≠ 4 + id.toNat))) ∧
      { t with dmabcr := s.dmabcr } = answered .none s) ∧
    (4 ≤ id.toNat → exec (.clrdte id) s = .refused .idOutOfRange)

/-! ### Starting -/

/-- R175, R181: the TransferState of a full-address start, and the fatal where the block bit is set; the
other elements stay. -/
def Obligations.FullAddressStartParameters : Prop :=
  ∀ (c : Chan) (s : State), (s.chan c).fae = true →
    ((s.dmacr c).getLsbD 11 = true → start c .subA s = .fatal (raiseFatal .blockModeStart s)) ∧
    ((s.dmacr c).getLsbD 11 = false → ∃ t, start c .subA s = .ret () t ∧
      (t.ts c .subA).source = s.mar c .subA ∧ (t.ts c .subA).dest = s.mar c .subB ∧
      (t.ts c .subA).count.toNat = unitCount (s.etcr c .subA) ∧
      (t.ts c .subA).mode16 = (s.dmacr c).getLsbD 15 ∧
      (t.ts c .subA).incs.toInt =
        (if (s.dmacr c).getLsbD 13 then signedStep ((s.dmacr c).getLsbD 15) ((s.dmacr c).getLsbD 14) else 0) ∧
      (t.ts c .subA).incd.toInt =
        (if (s.dmacr c).getLsbD 5 then signedStep ((s.dmacr c).getLsbD 15) ((s.dmacr c).getLsbD 6) else 0) ∧
      (t.ts c .subA).autoreq = ((s.dmacr c).getLsbD 2 && (s.dmacr c).getLsbD 1) ∧
      (t.ts c .subA).suspended = !(t.ts c .subA).autoreq ∧ (t.ts c .subA).id = (s.ts c .subA).id ∧
      t.inflight c .subA = true ∧ t.hazard = (s.hazard || s.inflight c .subA) ∧
      t.out = s.out ++ [.handoff (packedId c .subA)] ∧
      { (t.setTs c .subA (s.ts c .subA)).setInflight c .subA (s.inflight c .subA) with
        hazard := s.hazard, out := s.out } = s)

/-- R176 to R181, R61: the TransferState of a short-address start, in its three submodes; the other
elements stay. -/
def Obligations.ShortAddressStartParameters : Prop :=
  ∀ (c : Chan) (u : Sub) (s : State), (s.chan c).fae = false →
    ∃ (t : State) (k : Byte) (io : Addr) (mstep : Int),
      start c u s = .ret () t ∧
      (k = match u with | .subA => ((s.dmacr c) >>> 8).setWidth 8 | .subB => (s.dmacr c).setWidth 8) ∧
      io.toNat = 0xFF0000 + (s.ioar c u).toNat ∧
      (mstep = if k.getLsbD 5 && flagBit (s.chan c).dta u then 0 else signedStep (k.getLsbD 7) (k.getLsbD 6)) ∧
      ((t.ts c u).count.toNat =
        if k.getLsbD 5 && !flagBit (s.chan c).dta u then
          (if (s.etcr c u).toNat % 0x100 = 0 then 0x100 else (s.etcr c u).toNat % 0x100)
        else unitCount (s.etcr c u)) ∧
      ((t.ts c u).source = if k.getLsbD 4 then io else s.mar c u) ∧
      ((t.ts c u).dest = if k.getLsbD 4 then s.mar c u else io) ∧
      ((t.ts c u).incs.toInt = if k.getLsbD 4 then 0 else mstep) ∧
      ((t.ts c u).incd.toInt = if k.getLsbD 4 then mstep else 0) ∧
      (t.ts c u).mode16 = k.getLsbD 7 ∧ (t.ts c u).autoreq = false ∧ (t.ts c u).suspended = true ∧
      (t.ts c u).id = (s.ts c u).id ∧
      t.inflight c u = true ∧ t.hazard = (s.hazard || s.inflight c u) ∧
      t.out = s.out ++ [.handoff (packedId c u)] ∧
      { (t.setTs c u (s.ts c u)).setInflight c u (s.inflight c u) with hazard := s.hazard, out := s.out } = s

/-- R182: no count is zero at a handoff, none is above `0x10000`; a repeat-mode count is at most
`0x100`. -/
def Obligations.CountsAtHandoff : Prop :=
  ∀ (c : Chan) (u : Sub) (s t : State), start c u s = .ret () t →
    1 ≤ (t.ts c u).count.toNat ∧ (t.ts c u).count.toNat ≤ 0x10000 ∧
    ((s.chan c).fae = true → (t.ts c u).count.toNat % 0x10000 = (s.etcr c .subA).toNat) ∧
    ((s.chan c).fae = false → isRepeat (s.chan c) u = false →
      (t.ts c u).count.toNat % 0x10000 = (s.etcr c u).toNat) ∧
    ((s.chan c).fae = false → isRepeat (s.chan c) u = true →
      (t.ts c u).count.toNat ≤ 0x100 ∧ (t.ts c u).count.toNat % 0x100 = (s.etcr c u).toNat % 0x100)

/-- R40, R175: in full-address mode submodule B is never started. -/
def Obligations.FullAddressModeStartsOnlyA : Prop :=
  ∀ (i : Instr) (s t : State) (c : Chan), exec i s = .next t → s.inflight c .subB = false →
    t.inflight c .subB = true → (t.chan c).fae = false

/-! ### Requests -/

/-- R104 with `IMM`: where no channel faults, every enabled submodule of both channels is started and
the response says whether any was; R72: the vector is all of `data`, `mask` is ignored. -/
def Obligations.TriggerImmediateStarts : Prop :=
  encodes 0x81 (fun data _ => .trig data) ∧
  ∀ s : State, s.halted = false → faultsOnAttempt s.ch0 = false → faultsOnAttempt s.ch1 = false →
    ∃ t, exec (.trig 0xFFFF#16) s = .next t ∧
      t.outcome = .ok (.bit (startsOnImmediate s.ch0 .subA || startsOnImmediate s.ch0 .subB ||
        (startsOnImmediate s.ch1 .subA || startsOnImmediate s.ch1 .subB))) ∧
      t.ch0 = armed s.ch0 ∧ t.ch1 = armed s.ch1 ∧
      t.out = s.out ++ handoffsOf .ch0 s.ch0 ++ handoffsOf .ch1 s.ch1 ∧
      t.hazard = (s.hazard || restartsInFlight s.ch0 || restartsInFlight s.ch1) ∧
      t.dmabcr = s.dmabcr ∧ sameController s t

/-- R104 with `LEVEL` and `EDGE`, R171 to R173: each listening channel whose low three control bits are
`0b011`, `0b010` has its listener's suspension lifted; the response is the OR; no event. -/
def Obligations.TriggerRequestUnsuspends : Prop :=
  ∀ (v : Half) (code : Nat) (s : State), s.halted = false →
    faultsOnAttempt s.ch0 = false → faultsOnAttempt s.ch1 = false →
    (v = 0xFFFE#16 ∧ code = 0b011) ∨ (v = 0xFFFD#16 ∧ code = 0b010) →
    exec (.trig v) s = .next (answered
      (.bit ((listens s.ch0 && s.ch0.dmacr.toNat % 8 == code) || (listens s.ch1 && s.ch1.dmacr.toNat % 8 == code)))
      { s with
        ch0 := if listens s.ch0 && s.ch0.dmacr.toNat % 8 == code then lifted s.ch0 else s.ch0
        ch1 := if listens s.ch1 && s.ch1.dmacr.toNat % 8 == code then lifted s.ch1 else s.ch1 })

/-- R174: any other vector changes nothing and answers 0, where no channel faults. -/
def Obligations.PeripheralVectorsDoNothing : Prop :=
  ∀ (v : Half) (s : State), s.halted = false → faultsOnAttempt s.ch0 = false → faultsOnAttempt s.ch1 = false →
    v.toInt ≠ -1 → v.toInt ≠ -2 → v.toInt ≠ -3 → exec (.trig v) s = .next (answered (.bit false) s)

/-- R104, R171, R202: any vector is fatal on a channel in block mode and enabled. At channel 0 channel 1
is not looked at; at channel 1 what the vector did to channel 0 stays. -/
def Obligations.TriggerFatal : Prop :=
  ∀ (v : Half) (s : State), s.halted = false →
    (faultsOnAttempt s.ch0 = true →
      exec (.trig v) s = .next { s with
        out := s.out ++ [.fatal .blockModeStartTest], halted := true, outcome := .fatal .blockModeStartTest }) ∧
    (faultsOnAttempt s.ch0 = false → faultsOnAttempt s.ch1 = true →
      ∃ t, exec (.trig v) s = .next t ∧ t.outcome = .fatal .blockModeStartTest ∧ t.halted = true ∧
        t.ch1 = s.ch1 ∧ t.dmabcr = s.dmabcr ∧ sameLines s t ∧
        (v = 0xFFFF#16 → t.ch0 = armed s.ch0 ∧
          t.out = s.out ++ handoffsOf .ch0 s.ch0 ++ [.fatal .blockModeStartTest] ∧
          t.hazard = (s.hazard || restartsInFlight s.ch0)) ∧
        (v ≠ 0xFFFF#16 → t.out = s.out ++ [.fatal .blockModeStartTest] ∧ t.hazard = s.hazard ∧
          t.ch0 = if listens s.ch0 && ((v == 0xFFFE#16 && s.ch0.dmacr.toNat % 8 == 0b011) ||
            (v == 0xFFFD#16 && s.ch0.dmacr.toNat % 8 == 0b010)) then lifted s.ch0 else s.ch0))

/-- R204: an unsupported line is ignored: no state element changes; a halted block refuses first. -/
def Obligations.UnsupportedLineIsIgnored : Prop :=
  ∀ (l : Byte) (a : Bool) (s : State), 2 ≤ l.toNat →
    (s.halted = false → exec (.dreq l a) s = .next { s with outcome := .ignored }) ∧
    (s.halted = true → exec (.dreq l a) s = .refused .halted)

/-- R105: a cleared line is recorded and nothing else happens. -/
def Obligations.LineClearedIsRecorded : Prop :=
  ∀ (c : Chan) (s : State), s.halted = false →
    exec (.dreq (lineOperand c) false) s = .next (answered .none (s.setDreqPrev c false))

/-- R105: an asserted line makes a level attempt at every report and an edge attempt only where the
line was not asserted before; it reaches its own channel only and emits nothing. R72: the line is
`data[7:0]`, the level `data[8]`; `data[15:9]` and `mask` are ignored. -/
def Obligations.LineAssertedUnsuspends : Prop :=
  encodes 0x82 (fun data _ => .dreq (data.setWidth 8) (data.getLsbD 8)) ∧
  ∀ (c : Chan) (s : State), s.halted = false → faultsOnAttempt (s.chan c) = false →
    exec (.dreq (lineOperand c) true) s = .next (answered .none
      ((if listens (s.chan c) &&
          ((s.dmacr c).toNat % 8 == 0b011 || (!s.dreqPrev c && (s.dmacr c).toNat % 8 == 0b010)) then
        s.setChan c (lifted (s.chan c)) else s).setDreqPrev c true))

/-- R105, R202, R234(d): a report that ends in a fatal does not record the level. -/
def Obligations.LineFatalRecordsNothing : Prop :=
  ∀ (c : Chan) (s : State), s.halted = false → faultsOnAttempt (s.chan c) = true →
    exec (.dreq (lineOperand c) true) s = .next { s with
      out := s.out ++ [.fatal .blockModeStartTest], halted := true, outcome := .fatal .blockModeStartTest }

/-! ### The legacy pair -/

/-- R151, R152, R155 to R157: the control word of every legacy pair, field by field. -/
def Obligations.LegacyControlWord : Prop :=
  ∀ a b : Byte,
    (legacyDmacr a b).extractLsb' 13 3 = a.extractLsb' 4 3 ∧
    (legacyDmacr a b).extractLsb' 5 3 = b.extractLsb' 4 3 ∧
    (legacyDmacr a b).getLsbD 4 = false ∧
    (legacyFull a = false →
      (legacyDmacr a b).getLsbD 12 = false ∧
      ((legacyDmacr a b).extractLsb' 8 4).toNat = shortTable.getD (a.toNat % 8) 0 ∧
      ((legacyDmacr a b).extractLsb' 0 4).toNat = shortTable.getD (b.toNat % 8) 0) ∧
    (legacyFull a = true →
      (legacyDmacr a b).getLsbD 11 = a.getLsbD 0 ∧
      (legacyDmacr a b).getLsbD 12 = (a.getLsbD 0 && b.getLsbD 3) ∧
      (legacyDmacr a b).extractLsb' 8 3 = 0#3 ∧
      ((legacyDmacr a b).extractLsb' 0 4).toNat = (if a.getLsbD 0 then blockTable else fullTable).getD (b.toNat % 8) 0)

/-- R150, R139, R145: a write that does not leave both legacy enable bits set only stores; R54: any mask
but the full one is refused. R75: both operands are the low lanes of `data` and `mask`. -/
def Obligations.LegacyWriteAloneOnlyStores : Prop :=
  ∀ (c : Chan) (u : Sub) (d m : Byte) (s : State), s.halted = false →
    encodes (writeCode c 9) (fun data mask => .wrDtcra c (data.setWidth 8) (mask.setWidth 8)) ∧
    encodes (writeCode c 10) (fun data mask => .wrDtcrb c (data.setWidth 8) (mask.setWidth 8)) ∧
    ((d.getLsbD 7 && (s.dtcr c u.other).getLsbD 7) = false →
      exec (dtcrWrite c u d) s = .next (answered .none (s.setDtcr c u d))) ∧
    (m ≠ 0xFF#8 → exec (.wrDtcra c d m) s = .refused .partialMaskOnFullWidth ∧
      exec (.wrDtcrb c d m) s = .refused .partialMaskOnFullWidth)

/-- R139, R145, R151, R158, R159: a write that leaves both enable bits set translates the pair into the
control word and the flags and starts what they enable; the block-control word stays. The places of the
legacy bits and what `sae`, `dta`, `dtie` become are the spec's decisions D6 to D8 (log 11). -/
def Obligations.LegacyWriteTranslatesAndStarts : Prop :=
  ∀ (c : Chan) (u : Sub) (d a b : Byte) (s : State), s.halted = false →
    a = (s.setDtcr c u d).dtcr c .subA → b = (s.setDtcr c u d).dtcr c .subB →
    a.getLsbD 7 = true → b.getLsbD 7 = true → (legacyFull a && a.getLsbD 0) = false →
    ∃ (t : State) (ch : Channel), exec (dtcrWrite c u d) s = .next t ∧ t.outcome = .ok .none ∧
      ch = { (s.setDtcr c u d).chan c with
        dmacr := legacyDmacr a b, fae := legacyFull a, sae := !legacyFull a, dta := 0b00#2, dte := 0b11#2
        dtie := (if !legacyFull a && b.getLsbD 3 then 0b10#2 else 0b00#2) ||| (if a.getLsbD 3 then 0b01#2 else 0b00#2) } ∧
      t.chan c = armed ch ∧ t.chan c.other = s.chan c.other ∧ t.dmabcr = s.dmabcr ∧
      t.out = s.out ++ (if legacyFull a then [.handoff (packedId c .subA)]
        else [.handoff (packedId c .subB), .handoff (packedId c .subA)]) ∧
      t.hazard = (s.hazard || restartsInFlight ch) ∧ sameController s t

/-- R151, R156, R158, R202: a pair that describes block mode is stored and translated, control word and
every flag, and the start attempt is fatal: what was written stays and no submodule is armed. The places of the legacy bits and what `sae`, `dta`, `dtie`
become are the spec's decisions D6 to D8 (log 11). -/
def Obligations.LegacyBlockModeIsFatal : Prop :=
  ∀ (c : Chan) (u : Sub) (d a b : Byte) (s : State), s.halted = false →
    a = (s.setDtcr c u d).dtcr c .subA → b = (s.setDtcr c u d).dtcr c .subB →
    a.getLsbD 7 = true → b.getLsbD 7 = true → (legacyFull a && a.getLsbD 0) = true →
    ∃ t, exec (dtcrWrite c u d) s = .next t ∧ t.outcome = .fatal .blockModeStartTest ∧ t.halted = true ∧
      t.out = s.out ++ [.fatal .blockModeStartTest] ∧
      t.chan c = { (s.setDtcr c u d).chan c with
        dmacr := legacyDmacr a b, fae := true, sae := false, dta := 0b00#2, dte := 0b11#2
        dtie := if a.getLsbD 3 then 0b01#2 else 0b00#2 } ∧
      t.dtcr c .subA = a ∧ t.dtcr c .subB = b ∧
      (∀ v, t.ts c v = s.ts c v ∧ t.inflight c v = s.inflight c v ∧
        t.mar c v = s.mar c v ∧ t.ioar c v = s.ioar c v ∧ t.etcr c v = s.etcr c v) ∧
      (t.chan c).tend = (s.chan c).tend ∧ t.chan c.other = s.chan c.other ∧ t.dmabcr = s.dmabcr ∧
      t.hazard = s.hazard ∧ sameLines s t

/-- R160: translating a second time gives the same control word and flags; the block-control word, the
address and count registers and the other channel are not touched. -/
def Obligations.LegacyTranslationIsIdempotent : Prop :=
  ∀ (c : Chan) (s t : State) (r : Bool), translateLegacy c s = .ret r t →
    storeTranslation c t = t ∧ t.dmabcr = s.dmabcr ∧ t.chan c.other = s.chan c.other ∧
    ∀ u, t.mar c u = s.mar c u ∧ t.ioar c u = s.ioar c u ∧ t.etcr c u = s.etcr c u

/-! ### Completion -/

/-- R107, R190: LAST asserts the channel's transfer-end line for a transfer that is not auto-request,
and changes nothing else. -/
def Obligations.LastUnitDrivesTheEndLine : Prop :=
  encodes 0x84 (fun data _ => .last data) ∧
  ∀ (c : Chan) (u : Sub) (id : Half) (s : State), s.halted = false →
    exec (.last (idOperand c u)) s = .next (answered .none
      (if (s.ts c u).autoreq then s else { s.setTend c true with out := s.out ++ [.endSignal c true] })) ∧
    (4 ≤ id.toNat → exec (.last id) s = .refused .idOutOfRange)

/-- R108, R191, R192, R195: a full-address completion clears submodule 0's enable bit in the channel,
the block-control word and DTCRA, and raises the interrupt if enabled. R72: the operand is all of
`data`, `mask` is ignored. -/
def Obligations.FullAddressCompletion : Prop :=
  encodes 0x85 (fun data _ => .done data) ∧
  ∀ (c : Chan) (u : Sub) (s : State), s.halted = false → (s.chan c).fae = true → (s.dmacr c).getLsbD 11 = false →
    ∃ t, exec (.done (idOperand c u)) s = .next t ∧ t.outcome = .ok .none ∧
      flagBit (t.dte c) .subA = false ∧ flagBit (t.dte c) .subB = flagBit (s.dte c) .subB ∧
      (∀ k, k < 16 → t.dmabcr.getLsbD k = (s.dmabcr.getLsbD k && decide (k ≠ 4 + 2 * c.toNat))) ∧
      (∀ k, k < 8 → (t.dtcr c .subA).getLsbD k = ((s.dtcr c .subA).getLsbD k && decide (k ≠ 7))) ∧
      t.dtcr c .subB = s.dtcr c .subB ∧
      t.inflight c u = false ∧ t.inflight c u.other = s.inflight c u.other ∧
      (t.chan c).tend = ((s.ts c u).autoreq && (s.chan c).tend) ∧
      t.out = s.out ++ endEvents c u s ++
        (if flagBit (s.chan c).dtie .subA then [.irq (Config.irqBase c + u.toNat)] else []) ∧
      (∀ v, t.ts c v = s.ts c v) ∧ t.hazard = s.hazard ∧
      sameRegisters c s t ∧ t.chan c.other = s.chan c.other ∧ sameController s t

/-- R108, R191, R194, R195: a short-address one-shot completion clears the submodule's own enable bits
and raises its interrupt if enabled. -/
def Obligations.ShortAddressOneShotCompletion : Prop :=
  ∀ (c : Chan) (u : Sub) (s : State), s.halted = false → (s.chan c).fae = false → isRepeat (s.chan c) u = false →
    ∃ t, exec (.done (idOperand c u)) s = .next t ∧ t.outcome = .ok .none ∧
      flagBit (t.dte c) u = false ∧ flagBit (t.dte c) u.other = flagBit (s.dte c) u.other ∧
      (∀ k, k < 16 → t.dmabcr.getLsbD k = (s.dmabcr.getLsbD k && decide (k ≠ 4 + 2 * c.toNat + u.toNat))) ∧
      (∀ k, k < 8 → (t.dtcr c u).getLsbD k = ((s.dtcr c u).getLsbD k && decide (k ≠ 7))) ∧
      t.dtcr c u.other = s.dtcr c u.other ∧
      t.inflight c u = false ∧ t.inflight c u.other = s.inflight c u.other ∧
      (t.chan c).tend = ((s.ts c u).autoreq && (s.chan c).tend) ∧
      t.out = s.out ++ endEvents c u s ++
        (if flagBit (s.chan c).dtie u then [.irq (Config.irqBase c + u.toNat)] else []) ∧
      (∀ v, t.ts c v = s.ts c v) ∧ t.hazard = s.hazard ∧
      sameRegisters c s t ∧ t.chan c.other = s.chan c.other ∧ sameController s t

/-- R108, R191, R193: a repeat-mode completion builds the TransferState anew from the current registers
and hands it over; no enable bit changes, no interrupt. -/
def Obligations.RepeatModeCompletionReloads : Prop :=
  ∀ (c : Chan) (u : Sub) (s : State), s.halted = false → (s.chan c).fae = false → isRepeat (s.chan c) u = true →
    ∃ t, exec (.done (idOperand c u)) s = .next t ∧ t.outcome = .ok .none ∧
      t.ts c u = shortTransfer (s.chan c) u (s.sub c u) ∧ t.ts c u.other = s.ts c u.other ∧
      t.inflight c u = true ∧ t.inflight c u.other = s.inflight c u.other ∧
      t.dte c = s.dte c ∧ t.dmabcr = s.dmabcr ∧ (∀ v, t.dtcr c v = s.dtcr c v) ∧
      (t.chan c).tend = ((s.ts c u).autoreq && (s.chan c).tend) ∧
      t.out = s.out ++ endEvents c u s ++ [.handoff (packedId c u)] ∧ t.hazard = s.hazard ∧
      sameRegisters c s t ∧ t.chan c.other = s.chan c.other ∧ sameController s t

/-- R192, R202: a completion in block mode is fatal after the end signal; no enable bit is cleared and
no interrupt raised. -/
def Obligations.BlockModeCompletionIsFatal : Prop :=
  ∀ (c : Chan) (u : Sub) (s : State), s.halted = false → (s.chan c).fae = true → (s.dmacr c).getLsbD 11 = true →
    ∃ t, exec (.done (idOperand c u)) s = .next t ∧ t.outcome = .fatal .blockModeDone ∧ t.halted = true ∧
      t.out = s.out ++ endEvents c u s ++ [.fatal .blockModeDone] ∧ t.inflight c u = false ∧
      (t.chan c).tend = ((s.ts c u).autoreq && (s.chan c).tend) ∧
      t.inflight c u.other = s.inflight c u.other ∧ (∀ v, t.ts c v = s.ts c v) ∧ t.hazard = s.hazard ∧
      t.dte c = s.dte c ∧ t.dmabcr = s.dmabcr ∧ (∀ v, t.dtcr c v = s.dtcr c v) ∧
      sameRegisters c s t ∧ t.chan c.other = s.chan c.other ∧ sameLines s t

/-- R196: the document's two completion laws. -/
def Obligations.RepeatAndOneShotLaws : Prop :=
  ∀ (c : Chan) (u : Sub) (s t : State), exec (.done (idOperand c u)) s = .next t → (s.chan c).fae = false →
    (isRepeat (s.chan c) u = true →
      flagBit (t.dte c) u = flagBit (s.dte c) u ∧
      ((t.ts c u).count.toNat =
        if (s.etcr c u).toNat % 0x100 = 0 then 0x100 else (s.etcr c u).toNat % 0x100)) ∧
    (isRepeat (s.chan c) u = false →
      flagBit (t.dte c) u = false ∧ t.dmabcr.getLsbD (4 + 2 * c.toNat + u.toNat) = false ∧
      (flagBit (s.chan c).dtie u = true →
        (t.out.drop s.out.length).count (.irq (Config.irqBase c + u.toNat)) = 1))

/-! ### Reset -/

/-- R42: both controller registers are zero right after reset and after every RESET; R72: RESET ignores
`data` and `mask`. -/
def Obligations.ControllerRegistersResetToZero : Prop :=
  encodes 0x80 (fun _ _ => .reset) ∧
  State.reset.dmabcr = 0x0000#16 ∧ State.reset.dmawer = 0x00#8 ∧
  ∀ s : State, ∃ t, exec .reset s = .next t ∧ t.dmabcr = 0x0000#16 ∧ t.dmawer = 0x00#8

/-- R220: RESET is served in every state and sets every element; the open values are the parameters of
this reset's draw (log 4, log 5), and what has arrived stays (log 8). -/
def Obligations.ResetSetsEveryElement : Prop :=
  ∀ s : State, ∃ t, exec .reset s = .next t ∧ t.outcome = .ok .none ∧
    t.dmabcr = 0x0000#16 ∧ t.dmawer = 0x00#8 ∧ t.dreqPrev0 = false ∧ t.dreqPrev1 = false ∧ t.hazard = false ∧ t.halted = false ∧ t.out = [] ∧
    t.inbox = s.inbox ∧ t.resets = s.resets + 1 ∧
    (∀ c, (t.chan c).fae = false ∧ (t.chan c).sae = false ∧ (t.chan c).dta = 0b00#2 ∧ (t.chan c).dte = 0b00#2 ∧
      (t.chan c).dtie = 0b00#2 ∧ (t.chan c).dmacr = 0x0000#16 ∧ (t.chan c).tend = false) ∧
    ∀ c u, t.dtcr c u = 0x00#8 ∧ t.inflight c u = false ∧ (t.ts c u).id = packedId c u ∧
      t.mar c u = Config.resetMar t.resets c u ∧ t.ioar c u = Config.resetIoar t.resets c u ∧
      t.etcr c u = Config.resetEtcr t.resets c u ∧ (t.ts c u).source = Config.resetTsSource t.resets c u ∧
      (t.ts c u).dest = Config.resetTsDest t.resets c u ∧ (t.ts c u).incs = Config.resetTsIncs t.resets c u ∧
      (t.ts c u).incd = Config.resetTsIncd t.resets c u ∧ (t.ts c u).count = Config.resetTsCount t.resets c u ∧
      (t.ts c u).mode16 = Config.resetTsMode16 t.resets c u ∧
      (t.ts c u).autoreq = Config.resetTsAutoreq t.resets c u ∧
      (t.ts c u).suspended = Config.resetTsSuspended t.resets c u

/-! ### Whole-machine rules -/

/-- R24 to R26, R197: address and count registers change only by their own register's writes and by
RESET; never as a transfer starts, proceeds or ends. -/
def Obligations.AddressAndCountRegistersHold : Prop :=
  ∀ (i : Instr) (s t : State) (c : Chan) (u : Sub), exec i s = .next t →
    (writesMar i c u = false → t.mar c u = s.mar c u) ∧
    (writesIoar i c u = false → t.ioar c u = s.ioar c u) ∧
    (writesEtcr i c u = false → t.etcr c u = s.etcr c u)

/-- R110: a transaction addressed to one channel leaves the other as it is. -/
def Obligations.ChannelsAreIndependent : Prop :=
  ∀ (i : Instr) (s t : State) (c : Chan), exec i s = .next t → mayTouch i c = false → t.chan c = s.chan c

/-- R63, R213: DMAWER gates nothing: only its own read can tell two of its values apart. -/
def Obligations.WriteEnableGatesNothing : Prop :=
  ∀ (i : Instr) (s : State) (b : Byte), i ≠ .rdDmawer →
    mapNext (fun t => { t with dmawer := 0#8 }) (exec i { s with dmawer := b }) =
      mapNext (fun t => { t with dmawer := 0#8 }) (exec i s)

/-- R30: no rule reads the auxiliary flags. -/
def Obligations.AuxiliaryFlagReadByNothing : Prop :=
  ∀ (i : Instr) (s : State) (f : Chan → Bool),
    mapNext (withSae fun _ => false) (exec i (withSae f s)) = mapNext (withSae fun _ => false) (exec i s)

/-- R33: no rule depends on the four fields that the bus master may write. -/
def Obligations.ProgressFieldsReadByNothing : Prop :=
  ∀ (i : Instr) (s s' : State), hideProgress s = hideProgress s' →
    mapNext hideProgress (exec i s) = mapNext hideProgress (exec i s')

/-- R36: the hazard latch is never cleared but by RESET, and changes nothing else. -/
def Obligations.HazardIsStickyAndInert : Prop :=
  ∀ (i : Instr) (s : State),
    (∀ t, exec i s = .next t → i ≠ .reset → s.hazard = true → t.hazard = true) ∧
    ∀ b, mapNext (fun t => { t with hazard := false }) (exec i { s with hazard := b }) =
      mapNext (fun t => { t with hazard := false }) (exec i s)

/-- R206, R207, R209: which transactions emit which events; the trace only grows, but for RESET. -/
def Obligations.EventsByTransaction : Prop :=
  ∀ (i : Instr) (s t : State), exec i s = .next t → i ≠ .reset →
    ∃ es, t.out = s.out ++ es ∧
      (∀ n, Event.irq n ∈ es → isDone i = true) ∧
      (∀ c b, Event.endSignal c b ∈ es → drivesEnd i = true) ∧
      (∀ id, Event.handoff id ∈ es → mayHandOff i = true) ∧
      (∀ r, Event.fatal r ∈ es → mayAttempt i = true ∨ isDone i = true)

/-- R201: which transactions end in which fatal; reason 2 is reached by none. -/
def Obligations.FatalReasonsByTransaction : Prop :=
  ∀ (i : Instr) (s t : State), exec i s = .next t →
    (t.outcome = .fatal .blockModeStartTest → mayAttempt i = true) ∧
    t.outcome ≠ .fatal .blockModeStart ∧
    (t.outcome = .fatal .blockModeDone → isDone i = true)

/-- R32, R34, R35, R37, R201: the invariant of the block is kept by every step. -/
def Obligations.InvariantKeptByEveryStep : Prop :=
  ∀ s t : State, Inv s → step s = .next t → Inv t

/-- The invariant holds right after reset. -/
def Obligations.InvariantHoldsAtReset : Prop := Inv State.reset
end

