-- ==== Sys2Proof/Laws/State.lean ====
section
/-! SUPPORT. The small lemmas of the state: what each access reads after each update. No later proof
needs to unfold a record update of a channel or of the state. -/

namespace Sys2Proof.Machine

/-! ### A channel's submodules -/

@[simp] theorem Channel.sub_subA (ch : Channel) : ch.sub .subA = ch.subA := rfl
@[simp] theorem Channel.sub_subB (ch : Channel) : ch.sub .subB = ch.subB := rfl
@[simp] theorem Channel.setSub_fae (ch : Channel) (u : Sub) (m : Submodule) : (ch.setSub u m).fae = ch.fae := rfl
@[simp] theorem Channel.setSub_sae (ch : Channel) (u : Sub) (m : Submodule) : (ch.setSub u m).sae = ch.sae := rfl
@[simp] theorem Channel.setSub_dta (ch : Channel) (u : Sub) (m : Submodule) : (ch.setSub u m).dta = ch.dta := rfl
@[simp] theorem Channel.setSub_dte (ch : Channel) (u : Sub) (m : Submodule) : (ch.setSub u m).dte = ch.dte := rfl
@[simp] theorem Channel.setSub_dtie (ch : Channel) (u : Sub) (m : Submodule) : (ch.setSub u m).dtie = ch.dtie := rfl
@[simp] theorem Channel.setSub_dmacr (ch : Channel) (u : Sub) (m : Submodule) : (ch.setSub u m).dmacr = ch.dmacr := rfl
@[simp] theorem Channel.setSub_tend (ch : Channel) (u : Sub) (m : Submodule) : (ch.setSub u m).tend = ch.tend := rfl
@[simp] theorem Channel.sub_setSub_same (ch : Channel) (u : Sub) (m : Submodule) : (ch.setSub u m).sub u = m := by
  cases u <;> rfl
@[simp] theorem Channel.setSub_sub_self (ch : Channel) (u : Sub) : ch.setSub u (ch.sub u) = ch := by
  cases u <;> rfl
@[simp] theorem Channel.setSub_setSub (ch : Channel) (u : Sub) (m m' : Submodule) :
    (ch.setSub u m).setSub u m' = ch.setSub u m' := by
  cases u <;> rfl
theorem Channel.sub_setSub (ch : Channel) (u v : Sub) (m : Submodule) :
    (ch.setSub u m).sub v = if u = v then m else ch.sub v := by
  cases u <;> cases v <;> rfl

/-! ### The state's channels -/

@[simp] theorem State.chan_ch0 (s : State) : s.chan .ch0 = s.ch0 := rfl
@[simp] theorem State.chan_ch1 (s : State) : s.chan .ch1 = s.ch1 := rfl
@[simp] theorem State.setChan_dmabcr (s : State) (c : Chan) (ch : Channel) : (s.setChan c ch).dmabcr = s.dmabcr := rfl
@[simp] theorem State.setChan_dmawer (s : State) (c : Chan) (ch : Channel) : (s.setChan c ch).dmawer = s.dmawer := rfl
@[simp] theorem State.setChan_dreqPrev0 (s : State) (c : Chan) (ch : Channel) : (s.setChan c ch).dreqPrev0 = s.dreqPrev0 := rfl
@[simp] theorem State.setChan_dreqPrev1 (s : State) (c : Chan) (ch : Channel) : (s.setChan c ch).dreqPrev1 = s.dreqPrev1 := rfl
@[simp] theorem State.setChan_hazard (s : State) (c : Chan) (ch : Channel) : (s.setChan c ch).hazard = s.hazard := rfl
@[simp] theorem State.setChan_halted (s : State) (c : Chan) (ch : Channel) : (s.setChan c ch).halted = s.halted := rfl
@[simp] theorem State.setChan_out (s : State) (c : Chan) (ch : Channel) : (s.setChan c ch).out = s.out := rfl
@[simp] theorem State.setChan_inbox (s : State) (c : Chan) (ch : Channel) : (s.setChan c ch).inbox = s.inbox := rfl
@[simp] theorem State.setChan_outcome (s : State) (c : Chan) (ch : Channel) : (s.setChan c ch).outcome = s.outcome := rfl
@[simp] theorem State.setChan_resets (s : State) (c : Chan) (ch : Channel) : (s.setChan c ch).resets = s.resets := rfl
@[simp] theorem State.chan_setChan_same (s : State) (c : Chan) (ch : Channel) : (s.setChan c ch).chan c = ch := by
  cases c <;> rfl
@[simp] theorem State.setChan_chan_self (s : State) (c : Chan) : s.setChan c (s.chan c) = s := by
  cases c <;> rfl
@[simp] theorem State.setChan_setChan (s : State) (c : Chan) (ch ch' : Channel) :
    (s.setChan c ch).setChan c ch' = s.setChan c ch' := by
  cases c <;> rfl
theorem State.chan_setChan (s : State) (c d : Chan) (ch : Channel) :
    (s.setChan c ch).chan d = if c = d then ch else s.chan d := by
  cases c <;> cases d <;> rfl
@[simp] theorem State.chan_setChan_other (s : State) (c : Chan) (ch : Channel) :
    (s.setChan c ch).chan c.other = s.chan c.other := by
  cases c <;> rfl

/-! ### A channel under the updates of the other fields -/

@[simp] theorem State.chan_dmabcr (s : State) (c : Chan) (x : Half) : ({ s with dmabcr := x } : State).chan c = s.chan c := by
  cases c <;> rfl
@[simp] theorem State.chan_dmawer (s : State) (c : Chan) (x : Byte) : ({ s with dmawer := x } : State).chan c = s.chan c := by
  cases c <;> rfl
@[simp] theorem State.chan_hazard (s : State) (c : Chan) (b : Bool) : ({ s with hazard := b } : State).chan c = s.chan c := by
  cases c <;> rfl
@[simp] theorem State.chan_out (s : State) (c : Chan) (l : List Event) : ({ s with out := l } : State).chan c = s.chan c := by
  cases c <;> rfl
@[simp] theorem State.chan_inbox (s : State) (c : Chan) (l : List Inbound) : ({ s with inbox := l } : State).chan c = s.chan c := by
  cases c <;> rfl
@[simp] theorem State.chan_outcome (s : State) (c : Chan) (o : TxOutcome) : ({ s with outcome := o } : State).chan c = s.chan c := by
  cases c <;> rfl
/-- The two fields that a hand-over changes beside the channel. -/
theorem State.chan_hazard_out (s : State) (c : Chan) (b : Bool) (l : List Event) :
    ({ s with hazard := b, out := l } : State).chan c = s.chan c := by
  cases c <;> rfl
theorem State.setChan_hazard_out (s : State) (c : Chan) (ch : Channel) (b : Bool) (l : List Event) :
    ({ s with hazard := b, out := l } : State).setChan c ch = { s.setChan c ch with hazard := b, out := l } := by
  cases c <;> rfl
@[simp] theorem State.chan_setDreqPrev (s : State) (c d : Chan) (b : Bool) : (s.setDreqPrev c b).chan d = s.chan d := by
  cases d <;> rfl
@[simp] theorem State.chan_emit (s : State) (c : Chan) (e : Event) : (s.emit e).chan c = s.chan c := by
  cases c <;> rfl
@[simp] theorem State.chan_raiseFatal (s : State) (c : Chan) (r : FatalReason) : (raiseFatal r s).chan c = s.chan c := by
  cases c <;> rfl

/-! ### The state under an update of a submodule -/

@[simp] theorem State.setSub_dmabcr (s : State) (c : Chan) (u : Sub) (m : Submodule) : (s.setSub c u m).dmabcr = s.dmabcr := rfl
@[simp] theorem State.setSub_dmawer (s : State) (c : Chan) (u : Sub) (m : Submodule) : (s.setSub c u m).dmawer = s.dmawer := rfl
@[simp] theorem State.setSub_dreqPrev0 (s : State) (c : Chan) (u : Sub) (m : Submodule) : (s.setSub c u m).dreqPrev0 = s.dreqPrev0 := rfl
@[simp] theorem State.setSub_dreqPrev1 (s : State) (c : Chan) (u : Sub) (m : Submodule) : (s.setSub c u m).dreqPrev1 = s.dreqPrev1 := rfl
@[simp] theorem State.setSub_hazard (s : State) (c : Chan) (u : Sub) (m : Submodule) : (s.setSub c u m).hazard = s.hazard := rfl
@[simp] theorem State.setSub_halted (s : State) (c : Chan) (u : Sub) (m : Submodule) : (s.setSub c u m).halted = s.halted := rfl
@[simp] theorem State.setSub_out (s : State) (c : Chan) (u : Sub) (m : Submodule) : (s.setSub c u m).out = s.out := rfl
@[simp] theorem State.setSub_inbox (s : State) (c : Chan) (u : Sub) (m : Submodule) : (s.setSub c u m).inbox = s.inbox := rfl
@[simp] theorem State.setSub_outcome (s : State) (c : Chan) (u : Sub) (m : Submodule) : (s.setSub c u m).outcome = s.outcome := rfl
@[simp] theorem State.setSub_resets (s : State) (c : Chan) (u : Sub) (m : Submodule) : (s.setSub c u m).resets = s.resets := rfl

theorem State.chan_setSub (s : State) (c d : Chan) (u : Sub) (m : Submodule) :
    (s.setSub c u m).chan d = if c = d then (s.chan c).setSub u m else s.chan d := State.chan_setChan _ _ _ _

/-! ### Named registers -/

@[simp] theorem State.sub_setSub_same (s : State) (c : Chan) (u : Sub) (m : Submodule) : (s.setSub c u m).sub c u = m := by
  simp [State.sub, State.setSub]
theorem State.sub_setSub (s : State) (c d : Chan) (u v : Sub) (m : Submodule) :
    (s.setSub c u m).sub d v = if c = d ∧ u = v then m else s.sub d v := by
  cases c <;> cases d <;> cases u <;> cases v <;> rfl
@[simp] theorem State.mar_setMar_same (s : State) (c : Chan) (u : Sub) (a : Addr) : (s.setMar c u a).mar c u = a := by
  simp [State.mar, State.setMar]
@[simp] theorem State.ioar_setIoar_same (s : State) (c : Chan) (u : Sub) (h : Half) : (s.setIoar c u h).ioar c u = h := by
  simp [State.ioar, State.setIoar]
@[simp] theorem State.etcr_setEtcr_same (s : State) (c : Chan) (u : Sub) (h : Half) : (s.setEtcr c u h).etcr c u = h := by
  simp [State.etcr, State.setEtcr]
@[simp] theorem State.dtcr_setDtcr_same (s : State) (c : Chan) (u : Sub) (b : Byte) : (s.setDtcr c u b).dtcr c u = b := by
  simp [State.dtcr, State.setDtcr]
@[simp] theorem State.ts_setTs_same (s : State) (c : Chan) (u : Sub) (t : TransferState) : (s.setTs c u t).ts c u = t := by
  simp [State.ts, State.setTs]
@[simp] theorem State.inflight_setInflight_same (s : State) (c : Chan) (u : Sub) (b : Bool) :
    (s.setInflight c u b).inflight c u = b := by
  simp [State.inflight, State.setInflight]
@[simp] theorem State.dmacr_setDmacr_same (s : State) (c : Chan) (h : Half) : (s.setDmacr c h).dmacr c = h := by
  simp [State.dmacr, State.setDmacr]
@[simp] theorem State.dte_setDte_same (s : State) (c : Chan) (f : BitVec 2) : (s.setDte c f).dte c = f := by
  simp [State.dte, State.setDte]
@[simp] theorem State.dreqPrev_setDreqPrev_same (s : State) (c : Chan) (a : Bool) : (s.setDreqPrev c a).dreqPrev c = a := by
  cases c <;> rfl

/-! ### Procedures -/

@[simp] theorem Proc.bind_ret {α β : Type} (a : α) (s : State) (f : α → State → Proc β) : (Proc.ret a s).bind f = f a s := rfl
@[simp] theorem Proc.bind_fatal {α β : Type} (s : State) (f : α → State → Proc β) : (Proc.fatal s : Proc α).bind f = .fatal s := rfl
@[simp] theorem finish_ret (r : Response) (s : State) : finish (.ret r s) = .next { s with outcome := .ok r } := rfl
@[simp] theorem finish_fatal (s : State) : finish (.fatal s) = .next s := rfl
@[simp] theorem gated_running (s : State) (a : Answer) (h : s.halted = false) : gated s a = a := by simp [gated, h]
@[simp] theorem gated_halted (s : State) (a : Answer) (h : s.halted = true) : gated s a = .refused .halted := by simp [gated, h]

/-- What a transaction that always ends `ok` answers while the block runs. -/
theorem complete_running (s t : State) (r : Response) (h : s.halted = false) :
    complete s r t = .next { t with outcome := .ok r } := by
  unfold complete; rw [gated_running _ _ h]; rfl

/-- The mask test while the block runs (R54, R205). -/
theorem withFullMask_running {n : Nat} (s : State) (mask : BitVec n) (a : Answer) (h : s.halted = false) :
    withFullMask s mask a = if mask = BitVec.allOnes n then a else .refused .partialMaskOnFullWidth := by
  unfold withFullMask; rw [gated_running _ _ h]

/-- The identifier test while the block runs (R77, R205). -/
theorem withId_running (s : State) (data : Half) (f : BitVec 2 → Answer) (h : s.halted = false) :
    withId s data f = if data.toNat < 4 then f (idField data) else .refused .idOutOfRange := by
  unfold withId; rw [gated_running _ _ h]

/-- A next state comes through the gate only while the block runs (R111). -/
theorem gated_next (s t : State) (a : Answer) (h : gated s a = .next t) : s.halted = false ∧ a = .next t := by
  cases hs : s.halted
  · rw [gated_running _ _ hs] at h; exact ⟨rfl, h⟩
  · rw [gated_halted _ _ hs] at h; cases h

theorem complete_next (s t u : State) (r : Response) (h : complete s r t = .next u) :
    s.halted = false ∧ u = { t with outcome := .ok r } := by
  obtain ⟨h1, h2⟩ := gated_next _ _ _ h
  cases h2; exact ⟨h1, rfl⟩

theorem withFullMask_next {n : Nat} (s t : State) (mask : BitVec n) (a : Answer) (h : withFullMask s mask a = .next t) :
    s.halted = false ∧ mask = BitVec.allOnes n ∧ a = .next t := by
  obtain ⟨h1, h2⟩ := gated_next _ _ _ h
  split at h2
  · exact ⟨h1, by assumption, h2⟩
  · cases h2

theorem withId_next (s t : State) (data : Half) (f : BitVec 2 → Answer) (h : withId s data f = .next t) :
    s.halted = false ∧ data.toNat < 4 ∧ f (idField data) = .next t := by
  obtain ⟨h1, h2⟩ := gated_next _ _ _ h
  split at h2
  · exact ⟨h1, by assumption, h2⟩
  · cases h2

end Sys2Proof.Machine
end

