-- ==== Sys2Proof/Laws/Ops.lean ====
section
/-! SUPPORT. One lemma per shared operation that says all it can do: bits of the merge and of a cleared
bit, the three kinds of start attempt, the translation, the completion. Provers cite these instead of
unfolding the operations. -/

namespace Sys2Proof.Machine

open Sys2Proof.Safety

/-! ### Bits -/

/-- R53, bit by bit: a masked bit is the new one, any other keeps its value. -/
theorem getLsbD_merge {n : Nat} (cur new mask : BitVec n) (k : Nat) :
    (merge cur new mask).getLsbD k = if mask.getLsbD k then new.getLsbD k else cur.getLsbD k := by
  by_cases hk : k < n
  · simp only [merge, BitVec.getLsbD_or, BitVec.getLsbD_and, BitVec.getLsbD_not, hk, decide_true, Bool.true_and]
    cases mask.getLsbD k <;> simp
  · simp [BitVec.getLsbD_of_ge _ _ (Nat.le_of_not_lt hk)]

/-- A full mask stores the data. -/
@[simp] theorem merge_allOnes {n : Nat} (cur new : BitVec n) : merge cur new (BitVec.allOnes n) = new := by
  simp [merge]

/-- A zero mask stores nothing. -/
@[simp] theorem merge_zero {n : Nat} (cur new : BitVec n) : merge cur new 0#n = cur := by
  simp [merge]

/-- `x[i] <- 0`, bit by bit. -/
theorem getLsbD_clearBit {n : Nat} (x : BitVec n) (i k : Nat) :
    (clearBit x i).getLsbD k = (x.getLsbD k && decide (k ≠ i)) := by
  by_cases hk : k < n
  · by_cases h : k = i
    · subst h; simp [clearBit, hk]
    · simp [clearBit, hk, h]
  · simp [BitVec.getLsbD_of_ge _ _ (Nat.le_of_not_lt hk)]

/-- Clearing one submodule's bit of a 2-bit flag leaves the other's. -/
theorem flagBit_clearBit (f : BitVec 2) (u v : Sub) :
    flagBit (clearBit f u.toNat) v = (flagBit f v && decide (v ≠ u)) := by
  unfold flagBit
  rw [getLsbD_clearBit]
  cases u <;> cases v <;> rfl

@[simp] theorem idChan_packedId (c : Chan) (u : Sub) : idChan (packedId c u) = c := by
  cases c <;> cases u <;> rfl
@[simp] theorem idSub_packedId (c : Chan) (u : Sub) : idSub (packedId c u) = u := by
  cases c <;> cases u <;> rfl
theorem packedId_toNat (c : Chan) (u : Sub) : (packedId c u).toNat = 2 * c.toNat + u.toNat := by
  cases c <;> cases u <;> rfl

/-! ### The fatal -/

@[simp] theorem raiseFatal_out (r : FatalReason) (s : State) : (raiseFatal r s).out = s.out ++ [.fatal r] := rfl
@[simp] theorem raiseFatal_halted (r : FatalReason) (s : State) : (raiseFatal r s).halted = true := rfl
@[simp] theorem raiseFatal_outcome (r : FatalReason) (s : State) : (raiseFatal r s).outcome = .fatal r := rfl
@[simp] theorem raiseFatal_dmabcr (r : FatalReason) (s : State) : (raiseFatal r s).dmabcr = s.dmabcr := rfl
@[simp] theorem raiseFatal_dmawer (r : FatalReason) (s : State) : (raiseFatal r s).dmawer = s.dmawer := rfl
@[simp] theorem raiseFatal_dreqPrev0 (r : FatalReason) (s : State) : (raiseFatal r s).dreqPrev0 = s.dreqPrev0 := rfl
@[simp] theorem raiseFatal_dreqPrev1 (r : FatalReason) (s : State) : (raiseFatal r s).dreqPrev1 = s.dreqPrev1 := rfl
@[simp] theorem raiseFatal_hazard (r : FatalReason) (s : State) : (raiseFatal r s).hazard = s.hazard := rfl
@[simp] theorem raiseFatal_inbox (r : FatalReason) (s : State) : (raiseFatal r s).inbox = s.inbox := rfl
@[simp] theorem raiseFatal_resets (r : FatalReason) (s : State) : (raiseFatal r s).resets = s.resets := rfl
@[simp] theorem State.sub_raiseFatal (r : FatalReason) (s : State) (c : Chan) (u : Sub) :
    (raiseFatal r s).sub c u = s.sub c u := by
  simp [State.sub]

/-! ### Starting -/

/-- The hand-over of a TransferState just written (R181), as one update of the submodule. -/
theorem handoff_setTs (c : Chan) (u : Sub) (t : TransferState) (s : State) :
    handoff c u (s.setTs c u t) =
      { s.setSub c u { s.sub c u with ts := t, inflight := true } with
        hazard := s.hazard || s.inflight c u
        out := s.out ++ [.handoff (packedId c u)] } := by
  cases c <;> cases u <;> rfl

/-- `start` on a full-address channel whose block bit is clear (R175, R181). -/
theorem start_full (c : Chan) (u : Sub) (s : State) (hf : (s.chan c).fae = true) (hb : blockBit (s.chan c).dmacr = false) :
    start c u s = .ret () (handoff c u (s.setTs c u (fullTransfer (s.chan c) (s.ts c u)))) := by
  simp [start, startFull, hf, State.dmacr, hb]

/-- `start` on a full-address channel whose block bit is set (R175). -/
theorem start_full_block (c : Chan) (u : Sub) (s : State) (hf : (s.chan c).fae = true) (hb : blockBit (s.chan c).dmacr = true) :
    start c u s = .fatal (raiseFatal .blockModeStart s) := by
  simp [start, startFull, hf, State.dmacr, hb, Proc.raise]

/-- `start` on a short-address channel (R176, R181). -/
theorem start_short (c : Chan) (u : Sub) (s : State) (hf : (s.chan c).fae = false) :
    start c u s = .ret () (handoff c u (s.setTs c u (shortTransfer (s.chan c) u (s.sub c u)))) := by
  simp [start, startShort, hf]

/-- An attempt is fatal on a full-address channel with its enable and block bits set (R171). -/
theorem attemptStart_fatal (c : Chan) (v : StartCause) (s : State) (h : faultsOnAttempt (s.chan c) = true) :
    attemptStart c v s = .fatal (raiseFatal .blockModeStartTest s) := by
  unfold faultsOnAttempt at h
  simp only [Bool.and_eq_true] at h
  obtain ⟨⟨hf, hd⟩, hb⟩ := h
  have hd' : flagBit (s.dte c) .subA = true := hd
  have hb' : blockBit (s.dmacr c) = true := hb
  simp [attemptStart, attemptFull, hf, hd', hb', Proc.raise]

/-! #### A whole channel armed -/

theorem armedSub_idle (ch : Channel) (u : Sub) (h : startsOnImmediate ch u = false) : armedSub ch u = ch.sub u := by
  simp [armedSub, h]

theorem armedSub_full (ch : Channel) (u : Sub) (h : startsOnImmediate ch u = true) (hf : ch.fae = true) :
    armedSub ch u = { ch.sub u with ts := fullTransfer ch (ch.sub u).ts, inflight := true } := by
  simp [armedSub, h, hf]

theorem armedSub_short (ch : Channel) (u : Sub) (h : startsOnImmediate ch u = true) (hf : ch.fae = false) :
    armedSub ch u = { ch.sub u with ts := shortTransfer ch u (ch.sub u), inflight := true } := by
  simp [armedSub, h, hf]

/-- Where nothing starts, nothing changes. -/
theorem afterImmediate_idle (c : Chan) (s : State) (hA : startsOnImmediate (s.chan c) .subA = false)
    (hB : startsOnImmediate (s.chan c) .subB = false) : afterImmediate c s = s := by
  have h : armed (s.chan c) = s.chan c := by
    simp [armed, armedSub_idle _ _ hA, armedSub_idle _ _ hB]
  simp [afterImmediate, h, handoffsOf, restartsInFlight, hA, hB]

/-- Where A alone starts. -/
theorem afterImmediate_subA (c : Chan) (s : State) (hA : startsOnImmediate (s.chan c) .subA = true)
    (hB : startsOnImmediate (s.chan c) .subB = false) :
    afterImmediate c s =
      { s.setSub c .subA (armedSub (s.chan c) .subA) with
        hazard := s.hazard || s.inflight c .subA
        out := s.out ++ [.handoff (packedId c .subA)] } := by
  have h : armed (s.chan c) = (s.chan c).setSub .subA (armedSub (s.chan c) .subA) := by
    simp [armed, Channel.setSub, armedSub_idle _ _ hB]
  simp [afterImmediate, h, handoffsOf, restartsInFlight, hA, hB, State.setSub, State.inflight, State.sub]

/-- Where B alone starts. -/
theorem afterImmediate_subB (c : Chan) (s : State) (hA : startsOnImmediate (s.chan c) .subA = false)
    (hB : startsOnImmediate (s.chan c) .subB = true) :
    afterImmediate c s =
      { s.setSub c .subB (armedSub (s.chan c) .subB) with
        hazard := s.hazard || s.inflight c .subB
        out := s.out ++ [.handoff (packedId c .subB)] } := by
  have h : armed (s.chan c) = (s.chan c).setSub .subB (armedSub (s.chan c) .subB) := by
    simp [armed, Channel.setSub, armedSub_idle _ _ hA]
  simp [afterImmediate, h, handoffsOf, restartsInFlight, hA, hB, State.setSub, State.inflight, State.sub]

/-- Where both start. -/
theorem afterImmediate_both (c : Chan) (s : State) (hA : startsOnImmediate (s.chan c) .subA = true)
    (hB : startsOnImmediate (s.chan c) .subB = true) :
    afterImmediate c s =
      { s.setChan c (((s.chan c).setSub .subB (armedSub (s.chan c) .subB)).setSub .subA (armedSub (s.chan c) .subA)) with
        hazard := s.hazard || s.inflight c .subB || s.inflight c .subA
        out := s.out ++ [.handoff (packedId c .subB), .handoff (packedId c .subA)] } := by
  have h : armed (s.chan c) =
      ((s.chan c).setSub .subB (armedSub (s.chan c) .subB)).setSub .subA (armedSub (s.chan c) .subA) := by
    simp [armed, Channel.setSub]
  simp [afterImmediate, h, handoffsOf, restartsInFlight, hA, hB, State.inflight, State.sub, Bool.or_assoc]
  cases (s.chan c).subA.inflight <;> simp

/-! #### Attempts -/

/-- An Immediate attempt on a full-address channel (R171). -/
theorem attemptFull_immediate (c : Chan) (s : State) (hf : (s.chan c).fae = true)
    (h : faultsOnAttempt (s.chan c) = false) :
    attemptFull c .immediate s = .ret (startsOnImmediate (s.chan c) .subA) (afterImmediate c s) := by
  have hB : startsOnImmediate (s.chan c) .subB = false := by simp [startsOnImmediate, hf]
  have hd : flagBit (s.dte c) .subA = startsOnImmediate (s.chan c) .subA := rfl
  have hb : faultsOnAttempt (s.chan c) = (startsOnImmediate (s.chan c) .subA && blockBit (s.dmacr c)) := by
    simp only [faultsOnAttempt, hf, Bool.true_and]; rfl
  cases hA : startsOnImmediate (s.chan c) .subA
  · simp [attemptFull, hd, hA, afterImmediate_idle c s hA hB]
  · rw [hb, hA, Bool.true_and] at h
    simp only [attemptFull, hd, hA, Bool.not_true, Bool.false_eq_true, if_false, h, if_true]
    rw [start_full c .subA s hf h, Proc.bind_ret, handoff_setTs, afterImmediate_subA c s hA hB, armedSub_full _ _ hA hf]
    rfl

/-- `start` where enabled, on a short-address channel (R172, R176). -/
theorem startIfEnabled_short (c : Chan) (u : Sub) (s : State) (hf : (s.chan c).fae = false) :
    startIfEnabled c u s =
      .ret () (if startsOnImmediate (s.chan c) u then
        { s.setSub c u (armedSub (s.chan c) u) with
          hazard := s.hazard || s.inflight c u
          out := s.out ++ [.handoff (packedId c u)] } else s) := by
  have hd : flagBit (s.dte c) u = startsOnImmediate (s.chan c) u := by
    cases u <;> simp [startsOnImmediate, hf, flagBit, State.dte, Sub.toNat]
  cases hA : startsOnImmediate (s.chan c) u
  · simp [startIfEnabled, hd, hA]
  · simp only [startIfEnabled, hd, hA, if_true]
    rw [start_short c u s hf, handoff_setTs, armedSub_short _ _ hA hf]
    rfl

/-- The combined enable field is zero when neither bit is set (R172). -/
theorem dte_eq_zero (f : BitVec 2) : f = 0b00#2 ↔ f.getLsbD 0 = false ∧ f.getLsbD 1 = false := by
  revert f; decide

@[simp] theorem startsOnImmediate_setSub (ch : Channel) (u v : Sub) (m : Submodule) :
    startsOnImmediate (ch.setSub u m) v = startsOnImmediate ch v := by
  cases v <;> rfl

/-- A short-address submodule is armed alike whatever the other one holds. -/
theorem armedSub_setSub_subB (ch : Channel) (m : Submodule) (hf : ch.fae = false) :
    armedSub (ch.setSub .subB m) .subA = armedSub ch .subA := by
  cases hA : startsOnImmediate ch .subA
  · rw [armedSub_idle _ _ hA, armedSub_idle _ _ (by simpa using hA)]; rfl
  · rw [armedSub_short _ _ hA hf, armedSub_short _ _ (by simpa using hA) (by simpa using hf)]; rfl

/-- An Immediate attempt on a short-address channel (R172). -/
theorem attemptShort_immediate (c : Chan) (s : State) (hf : (s.chan c).fae = false) :
    attemptShort c .immediate s =
      .ret (startsOnImmediate (s.chan c) .subA || startsOnImmediate (s.chan c) .subB) (afterImmediate c s) := by
  have hz : (s.dte c = 0b00#2) ↔
      startsOnImmediate (s.chan c) .subA = false ∧ startsOnImmediate (s.chan c) .subB = false := by
    simpa [startsOnImmediate, hf, State.dte] using dte_eq_zero (s.dte c)
  by_cases h0 : s.dte c = 0b00#2
  · obtain ⟨hA, hB⟩ := hz.mp h0
    simp [attemptShort, h0, hA, hB, afterImmediate_idle c s hA hB]
  · simp only [attemptShort, h0, if_false, if_true]
    rw [startIfEnabled_short c .subB s hf, Proc.bind_ret]
    cases hB : startsOnImmediate (s.chan c) .subB
    · cases hA : startsOnImmediate (s.chan c) .subA
      · exact absurd (hz.mpr ⟨hA, hB⟩) h0
      · rw [if_neg (by simp), startIfEnabled_short c .subA s hf, hA, if_pos rfl, Proc.bind_ret,
          afterImmediate_subA c s hA hB]
        rfl
    · have hc : ({ s.setSub c .subB (armedSub (s.chan c) .subB) with
          hazard := s.hazard || s.inflight c .subB
          out := s.out ++ [.handoff (packedId c .subB)] } : State).chan c =
          (s.chan c).setSub .subB (armedSub (s.chan c) .subB) := by
        rw [State.chan_hazard_out, State.setSub, State.chan_setChan_same]
      rw [if_pos rfl, startIfEnabled_short c .subA _ (by rw [hc]; exact hf), hc, startsOnImmediate_setSub,
        armedSub_setSub_subB _ _ hf]
      cases hA : startsOnImmediate (s.chan c) .subA
      · rw [if_neg (by simp), Proc.bind_ret, afterImmediate_subB c s hA hB]
        rfl
      · rw [if_pos rfl, Proc.bind_ret, afterImmediate_both c s hA hB]
        simp only [State.setSub, State.setChan_hazard_out, State.chan_hazard_out, State.chan_setChan_same,
          State.setChan_setChan, State.inflight, State.sub, Bool.or_true, List.append_assoc, List.cons_append, List.nil_append]
        rfl

/-- An Immediate attempt that is not fatal (R170 to R172): the channel armed, the handoffs emitted. -/
theorem attemptStart_immediate (c : Chan) (s : State) (h : faultsOnAttempt (s.chan c) = false) :
    attemptStart c .immediate s =
      .ret (startsOnImmediate (s.chan c) .subA || startsOnImmediate (s.chan c) .subB) (afterImmediate c s) := by
  cases hf : (s.chan c).fae
  · simp [attemptStart, hf, attemptShort_immediate c s hf]
  · have hB : startsOnImmediate (s.chan c) .subB = false := by simp [startsOnImmediate, hf]
    simp [attemptStart, hf, attemptFull_immediate c s hf h, hB]

/-- An attempt by any other cause that is not fatal (R171 to R174): where the channel listens and the
code matches, the listener's suspension is lifted; else nothing changes. -/
theorem attemptStart_request (c : Chan) (v : StartCause) (s : State) (hv : v ≠ .immediate)
    (h : faultsOnAttempt (s.chan c) = false) :
    attemptStart c v s =
      if listens (s.chan c) && requestMatches v (s.dmacr c) then
        .ret true (unsuspend c (listener (s.chan c)) s)
      else .ret false s := by
  cases hf : (s.chan c).fae
  · by_cases h0 : s.dte c = 0b00#2
    · have hl : listens (s.chan c) = false := by
        have : (s.chan c).dte = 0b00#2 := h0
        simp [listens, hf, this]
      simp [attemptStart, hf, attemptShort, h0, hl]
    · have hl : listens (s.chan c) = true := by
        have : ¬ (s.chan c).dte = 0b00#2 := h0
        simpa [listens, hf] using this
      simp [attemptStart, hf, attemptShort, h0, hv, hl, listener]
  · have hd : listens (s.chan c) = flagBit (s.dte c) .subA := by simp only [listens, hf, if_true]; rfl
    have hb : faultsOnAttempt (s.chan c) = (flagBit (s.dte c) .subA && blockBit (s.dmacr c)) := by
      simp only [faultsOnAttempt, hf, Bool.true_and]; rfl
    cases hA : flagBit (s.dte c) .subA
    · simp [attemptStart, hf, attemptFull, hA, hd]
    · rw [hb, hA, Bool.true_and] at h
      simp [attemptStart, hf, attemptFull, hA, hd, hv, h, listener]

/-- Every outcome of a start attempt (R170 to R174): the fatal, or, where the channel does not fault, an
Immediate arms it, and any other cause lifts the listener's suspension or changes nothing. -/
theorem attemptStart_cases (c : Chan) (v : StartCause) (s : State) :
    (faultsOnAttempt (s.chan c) = true ∧ attemptStart c v s = .fatal (raiseFatal .blockModeStartTest s)) ∨
    (faultsOnAttempt (s.chan c) = false ∧ ∃ b,
      (v = .immediate ∧ attemptStart c v s = .ret b (afterImmediate c s)) ∨
      (v ≠ .immediate ∧ attemptStart c v s = .ret b (unsuspend c (listener (s.chan c)) s)) ∨
      (v ≠ .immediate ∧ attemptStart c v s = .ret b s)) := by
  cases h : faultsOnAttempt (s.chan c)
  · right; refine ⟨rfl, ?_⟩
    by_cases hv : v = .immediate
    · subst hv; exact ⟨_, .inl ⟨rfl, attemptStart_immediate c s h⟩⟩
    · rw [attemptStart_request c v s hv h]
      split
      · exact ⟨_, .inr (.inl ⟨hv, rfl⟩)⟩
      · exact ⟨_, .inr (.inr ⟨hv, rfl⟩)⟩
  · left; exact ⟨rfl, attemptStart_fatal c v s h⟩

/-! ### The legacy pair -/

/-- The channel after the stores of the translation (R151, R158). -/
theorem storeTranslation_chan (c : Chan) (s : State) :
    (storeTranslation c s).chan c =
      { (s.chan c).withLegacyFlags (s.dtcr c .subA) (s.dtcr c .subB) with
        dmacr := legacyDmacr (s.dtcr c .subA) (s.dtcr c .subB) } := State.chan_setChan_same _ _ _

theorem storeTranslation_chan_other (c : Chan) (s : State) : (storeTranslation c s).chan c.other = s.chan c.other :=
  State.chan_setChan_other _ _ _

/-- The translation writes the control word and the flags of a channel, nothing of its submodules (R160). -/
@[simp] theorem storeTranslation_sub (c d : Chan) (u : Sub) (s : State) : (storeTranslation c s).sub d u = s.sub d u := by
  cases c <;> cases d <;> cases u <;> rfl

/-- The Controller's elements under the stores of the translation (R160). -/
theorem storeTranslation_rest (c : Chan) (s : State) :
    (storeTranslation c s).dmabcr = s.dmabcr ∧ (storeTranslation c s).dmawer = s.dmawer ∧
    (storeTranslation c s).dreqPrev0 = s.dreqPrev0 ∧ (storeTranslation c s).dreqPrev1 = s.dreqPrev1 ∧
    (storeTranslation c s).hazard = s.hazard ∧ (storeTranslation c s).halted = s.halted ∧
    (storeTranslation c s).out = s.out ∧ (storeTranslation c s).inbox = s.inbox ∧
    (storeTranslation c s).outcome = s.outcome ∧ (storeTranslation c s).resets = s.resets := by
  cases c <;> exact ⟨rfl, rfl, rfl, rfl, rfl, rfl, rfl, rfl, rfl, rfl⟩

/-- The flags of a pair that describes full-address mode (R153, R158). -/
theorem withLegacyFlags_full (ch : Channel) (a b : Byte) (hf : legacyFull a = true) (ha : a.getLsbD 7 = true)
    (hb : b.getLsbD 7 = true) :
    ch.withLegacyFlags a b = { ch with
      fae := true, sae := false, dta := 0b00#2, dte := 0b11#2
      dtie := if a.getLsbD 3 then 0b01#2 else 0b00#2 } := by
  simp only [Channel.withLegacyFlags, hf, ha, hb]
  cases a.getLsbD 3 <;> cases b.getLsbD 3 <;> rfl

/-! ### Completion -/

/-- The prologue of `transfer_done` (R191), as one name for its lemmas. -/
theorem prologue_chan (c : Chan) (u : Sub) (s : State) :
    ((driveEnd c u false s).setInflight c u false).chan c =
      ({ s.chan c with tend := (s.ts c u).autoreq && (s.chan c).tend } : Channel).setSub u
        { (s.chan c).sub u with inflight := false } := by
  cases h : (s.ts c u).autoreq <;> cases c <;> cases u <;> simp [driveEnd, h, State.setInflight, State.setSub, State.setTend,
    State.sub, State.setChan, Channel.setSub]

theorem prologue_chan_other (c : Chan) (u : Sub) (s : State) :
    ((driveEnd c u false s).setInflight c u false).chan c.other = s.chan c.other := by
  cases c <;> rfl

theorem prologue_out (c : Chan) (u : Sub) (s : State) :
    ((driveEnd c u false s).setInflight c u false).out =
      s.out ++ (if (s.ts c u).autoreq then [] else [.endSignal c false]) := by
  cases c <;> rfl

/-- What `transfer_done` does, its cases told by the state before it (R191 to R194). -/
theorem transferDone_cases (c : Chan) (u : Sub) (s : State) :
    transferDone c u s =
      let t := (driveEnd c u false s).setInflight c u false
      if (s.chan c).fae then
        if blockBit (s.chan c).dmacr then .fatal (raiseFatal .blockModeDone t)
        else .ret () (retire c .subA u t)
      else if isRepeat (s.chan c) u then
        .ret () (handoff c u (t.setTs c u (shortTransfer (t.chan c) u (t.sub c u))))
      else .ret () (retire c u u t) := by
  have h := prologue_chan c u s
  have hf : (((driveEnd c u false s).setInflight c u false).chan c).fae = (s.chan c).fae := by rw [h]; rfl
  have hd : ((driveEnd c u false s).setInflight c u false).dmacr c = (s.chan c).dmacr := by rw [State.dmacr, h]; rfl
  have hr : isRepeat (((driveEnd c u false s).setInflight c u false).chan c) u = isRepeat (s.chan c) u := by rw [h]; rfl
  simp only [transferDone, hf, hd, hr, Proc.raise]
  cases hf' : (s.chan c).fae
  · rw [start_short c u _ (by rw [hf, hf'])]
  · rfl

/-- The channel after a one-shot completion (R192, R194): its enable bit and legacy bit are clear. -/
theorem retire_chan (c : Chan) (e u : Sub) (t : State) :
    (retire c e u t).chan c =
      ({ t.chan c with dte := clearBit (t.dte c) e.toNat } : Channel).setSub e
        { (t.chan c).sub e with dtcr := clearBit (t.dtcr c e) 7 } := by
  unfold retire
  dsimp only
  split
  · rw [State.chan_emit]; cases c <;> cases e <;> rfl
  · cases c <;> cases e <;> rfl

/-- What else a one-shot completion does (R192, R194): the block-control word's bit, the interrupt. -/
theorem retire_rest (c : Chan) (e u : Sub) (t : State) :
    (retire c e u t).chan c.other = t.chan c.other ∧
    (retire c e u t).dmabcr = clearBit t.dmabcr (4 + (packedId c e).toNat) ∧
    (retire c e u t).out = t.out ++ (if flagBit (t.chan c).dtie e then [.irq (Config.irqBase c + u.toNat)] else []) ∧
    (retire c e u t).hazard = t.hazard ∧ (retire c e u t).halted = t.halted ∧ (retire c e u t).dmawer = t.dmawer ∧
    (retire c e u t).dreqPrev0 = t.dreqPrev0 ∧ (retire c e u t).dreqPrev1 = t.dreqPrev1 ∧
    (retire c e u t).inbox = t.inbox ∧ (retire c e u t).resets = t.resets := by
  have h : flagBit (((clearEnable (packedId c e) (t.setDte c (clearBit (t.dte c) e.toNat))).setDtcr c e
      (clearBit ((clearEnable (packedId c e) (t.setDte c (clearBit (t.dte c) e.toNat))).dtcr c e) 7)).chan c).dtie e =
      flagBit (t.chan c).dtie e := by
    cases c <;> cases e <;> rfl
  unfold retire
  dsimp only
  rw [h]
  cases flagBit (t.chan c).dtie e
  · simp only [Bool.false_eq_true, if_false, List.append_nil]
    cases c <;> exact ⟨rfl, rfl, rfl, rfl, rfl, rfl, rfl, rfl, rfl, rfl⟩
  · cases c <;> exact ⟨rfl, rfl, rfl, rfl, rfl, rfl, rfl, rfl, rfl, rfl⟩

end Sys2Proof.Machine
end

