-- ==== Sys2Proof/Laws/PerInstr.lean ====
section
/-! SUPPORT. The fields of a packed word (30_encoding.md R70), and, one lemma per constructor, that an
encoded transaction carries its operation code in bits 39:32. -/

namespace Sys2Proof

theorem opField_packWord (op : Byte) (data mask : Half) : opField (packWord op data mask) = op := by
  apply BitVec.eq_of_getLsbD_eq
  intro k hk
  simp only [opField, packWord, BitVec.getLsbD_extractLsb', BitVec.getLsbD_append, hk, decide_true, Bool.true_and,
    if_neg (show ¬ 32 + k < 16 by omega), if_neg (show ¬ 32 + k - 16 < 16 by omega)]
  congr 1; omega

theorem dataField_packWord (op : Byte) (data mask : Half) : dataField (packWord op data mask) = data := by
  apply BitVec.eq_of_getLsbD_eq
  intro k hk
  simp only [dataField, packWord, BitVec.getLsbD_extractLsb', BitVec.getLsbD_append, hk, decide_true, Bool.true_and,
    if_neg (show ¬ 16 + k < 16 by omega), if_pos (show 16 + k - 16 < 16 by omega)]
  congr 1; omega

theorem maskField_packWord (op : Byte) (data mask : Half) : maskField (packWord op data mask) = mask := by
  apply BitVec.eq_of_getLsbD_eq
  intro k hk
  simp only [maskField, packWord, BitVec.getLsbD_extractLsb', BitVec.getLsbD_append, hk, decide_true, Bool.true_and,
    if_pos (show 0 + k < 16 by omega)]
  congr 1; omega

/-- The low lane of an 8-bit operand placed in a 16-bit field. -/
@[simp] theorem lowLane_setWidth (b : Byte) : lowLane (b.setWidth 16) = b := by
  apply BitVec.eq_of_getLsbD_eq
  intro k hk
  simp [lowLane, hk, Nat.lt_trans hk (by decide : 8 < 16)]

namespace Laws.OpFieldOfEncode

/-- The operation code of an encoded transaction is the one R72 to R74 give it. -/
def Statement (i : Instr) : Prop := opField (encode i) = i.opcode

theorem rdDmabcr : Statement (.rdDmabcr) := opField_packWord _ _ _
theorem wrDmabcr (data mask : Half) : Statement (.wrDmabcr data mask) := opField_packWord _ _ _
theorem rdDmawer : Statement (.rdDmawer) := opField_packWord _ _ _
theorem wrDmawer (data mask : Byte) : Statement (.wrDmawer data mask) := opField_packWord _ _ _
theorem rdMarah (c : Chan) : Statement (.rdMarah c) := opField_packWord _ _ _
theorem wrMarah (c : Chan) (data mask : Byte) : Statement (.wrMarah c data mask) := opField_packWord _ _ _
theorem rdMaral (c : Chan) : Statement (.rdMaral c) := opField_packWord _ _ _
theorem wrMaral (c : Chan) (data mask : Half) : Statement (.wrMaral c data mask) := opField_packWord _ _ _
theorem rdIoara (c : Chan) : Statement (.rdIoara c) := opField_packWord _ _ _
theorem wrIoara (c : Chan) (data mask : Half) : Statement (.wrIoara c data mask) := opField_packWord _ _ _
theorem rdEtcra (c : Chan) : Statement (.rdEtcra c) := opField_packWord _ _ _
theorem wrEtcra (c : Chan) (data mask : Half) : Statement (.wrEtcra c data mask) := opField_packWord _ _ _
theorem rdMarbh (c : Chan) : Statement (.rdMarbh c) := opField_packWord _ _ _
theorem wrMarbh (c : Chan) (data mask : Byte) : Statement (.wrMarbh c data mask) := opField_packWord _ _ _
theorem rdMarbl (c : Chan) : Statement (.rdMarbl c) := opField_packWord _ _ _
theorem wrMarbl (c : Chan) (data mask : Half) : Statement (.wrMarbl c data mask) := opField_packWord _ _ _
theorem rdIoarb (c : Chan) : Statement (.rdIoarb c) := opField_packWord _ _ _
theorem wrIoarb (c : Chan) (data mask : Half) : Statement (.wrIoarb c data mask) := opField_packWord _ _ _
theorem rdEtcrb (c : Chan) : Statement (.rdEtcrb c) := opField_packWord _ _ _
theorem wrEtcrb (c : Chan) (data mask : Half) : Statement (.wrEtcrb c data mask) := opField_packWord _ _ _
theorem rdDmacr (c : Chan) : Statement (.rdDmacr c) := opField_packWord _ _ _
theorem wrDmacr (c : Chan) (data mask : Half) : Statement (.wrDmacr c data mask) := opField_packWord _ _ _
theorem rdDtcra (c : Chan) : Statement (.rdDtcra c) := opField_packWord _ _ _
theorem wrDtcra (c : Chan) (data mask : Byte) : Statement (.wrDtcra c data mask) := opField_packWord _ _ _
theorem rdDtcrb (c : Chan) : Statement (.rdDtcrb c) := opField_packWord _ _ _
theorem wrDtcrb (c : Chan) (data mask : Byte) : Statement (.wrDtcrb c data mask) := opField_packWord _ _ _
theorem rdIoara8 (c : Chan) : Statement (.rdIoara8 c) := opField_packWord _ _ _
theorem wrIoara8 (c : Chan) (data mask : Byte) : Statement (.wrIoara8 c data mask) := opField_packWord _ _ _
theorem rdIoarb8 (c : Chan) : Statement (.rdIoarb8 c) := opField_packWord _ _ _
theorem wrIoarb8 (c : Chan) (data mask : Byte) : Statement (.wrIoarb8 c data mask) := opField_packWord _ _ _
theorem reset : Statement (.reset) := opField_packWord _ _ _
theorem trig (v : Half) : Statement (.trig v) := opField_packWord _ _ _
theorem dreq (l : Byte) (a : Bool) : Statement (.dreq l a) := opField_packWord _ _ _
theorem clrdte (id : Half) : Statement (.clrdte id) := opField_packWord _ _ _
theorem last (id : Half) : Statement (.last id) := opField_packWord _ _ _
theorem done (id : Half) : Statement (.done id) := opField_packWord _ _ _

end Laws.OpFieldOfEncode

end Sys2Proof
end

