-- ==== Sys2Proof/Tests/Slice0.lean ====
section
/-! SUPPORT. The model's own tests: the operand checks, every constructor's decoding from a word written
out in 95_test_vectors.md section 3.1, single steps whose expected values are rows of that file (named in
the comment above each group), and one witness for each statement that has hypotheses. -/

namespace Sys2Proof.Tests

open Sys2Proof Sys2Proof.Machine Sys2Proof.Safety Sys2Proof.Claims

/-! ### Well-formedness: each check refuses an ill-formed term and passes a well-formed one (R54, R77) -/

theorem test_wf_id_four : (Instr.clrdte 4#16).illFormed = some .idOutOfRange := by decide
theorem test_wf_id_top : (Instr.last 0xFFFF#16).illFormed = some .idOutOfRange := by decide
theorem test_wf_id_eight : (Instr.done 8#16).illFormed = some .idOutOfRange := by decide
theorem test_wf_id_three : (Instr.done 3#16).WellFormed := by decide
theorem test_wf_mask_ioara : (Instr.wrIoara .ch0 0x5678#16 0x00FF#16).illFormed = some .partialMaskOnFullWidth := by decide
theorem test_wf_mask_ioarb8 : (Instr.wrIoarb8 .ch1 0x55#8 0x0F#8).illFormed = some .partialMaskOnFullWidth := by decide
theorem test_wf_mask_dtcrb : (Instr.wrDtcrb .ch0 0x80#8 0x80#8).illFormed = some .partialMaskOnFullWidth := by decide
theorem test_wf_mask_dmawer : (Instr.wrDmawer 0xFF#8 0x7F#8).illFormed = some .partialMaskOnFullWidth := by decide
theorem test_wf_mask_full : (Instr.wrIoara .ch0 0x5678#16 0xFFFF#16).WellFormed := by decide
theorem test_wf_mask_zero_allowed : (Instr.wrMaral .ch0 0xFFFF#16 0#16).WellFormed := by decide

/-! ### Decoding (95_test_vectors.md section 3.1) -/

theorem test_decode_rdDmabcr : decode 0x0000000000#40 = .instr .rdDmabcr := by decide
theorem test_decode_wrDmabcr : decode 0x404011FFFF#40 = .instr (.wrDmabcr 0x4011#16 0xFFFF#16) := by decide
theorem test_decode_rdDmawer : decode 0x0100000000#40 = .instr .rdDmawer := by decide
theorem test_decode_wrDmawer : decode 0x4100A500FF#40 = .instr (.wrDmawer 0xA5#8 0xFF#8) := by decide
theorem test_decode_rdMarah : decode 0x2000000000#40 = .instr (.rdMarah .ch0) := by decide
theorem test_decode_wrMarah : decode 0x60002000FF#40 = .instr (.wrMarah .ch0 0x20#8 0xFF#8) := by decide
theorem test_decode_rdMaral : decode 0x3100000000#40 = .instr (.rdMaral .ch1) := by decide
theorem test_decode_wrMaral : decode 0x718000FFFF#40 = .instr (.wrMaral .ch1 0x8000#16 0xFFFF#16) := by decide
theorem test_decode_rdIoara : decode 0x2200000000#40 = .instr (.rdIoara .ch0) := by decide
theorem test_decode_wrIoara : decode 0x621234FFFF#40 = .instr (.wrIoara .ch0 0x1234#16 0xFFFF#16) := by decide
theorem test_decode_rdEtcra : decode 0x2300000000#40 = .instr (.rdEtcra .ch0) := by decide
theorem test_decode_wrEtcra : decode 0x730002FFFF#40 = .instr (.wrEtcra .ch1 2#16 0xFFFF#16) := by decide
theorem test_decode_rdMarbh : decode 0x3400000000#40 = .instr (.rdMarbh .ch1) := by decide
theorem test_decode_wrMarbh : decode 0x7400CD00FF#40 = .instr (.wrMarbh .ch1 0xCD#8 0xFF#8) := by decide
theorem test_decode_rdMarbl : decode 0x2500000000#40 = .instr (.rdMarbl .ch0) := by decide
theorem test_decode_wrMarbl : decode 0x652000FFFF#40 = .instr (.wrMarbl .ch0 0x2000#16 0xFFFF#16) := by decide
theorem test_decode_rdIoarb : decode 0x3600000000#40 = .instr (.rdIoarb .ch1) := by decide
theorem test_decode_wrIoarb : decode 0x66FFD0FFFF#40 = .instr (.wrIoarb .ch0 0xFFD0#16 0xFFFF#16) := by decide
theorem test_decode_rdEtcrb : decode 0x3700000000#40 = .instr (.rdEtcrb .ch1) := by decide
theorem test_decode_wrEtcrb : decode 0x67000800FF#40 = .instr (.wrEtcrb .ch0 0x0008#16 0x00FF#16) := by decide
theorem test_decode_rdDmacr : decode 0x3800000000#40 = .instr (.rdDmacr .ch1) := by decide
theorem test_decode_wrDmacr : decode 0x7808000800#40 = .instr (.wrDmacr .ch1 0x0800#16 0x0800#16) := by decide
theorem test_decode_rdDtcra : decode 0x3900000000#40 = .instr (.rdDtcra .ch1) := by decide
theorem test_decode_wrDtcra : decode 0x7900DE00FF#40 = .instr (.wrDtcra .ch1 0xDE#8 0xFF#8) := by decide
theorem test_decode_rdDtcrb : decode 0x3A00000000#40 = .instr (.rdDtcrb .ch1) := by decide
theorem test_decode_wrDtcrb : decode 0x7A00B600FF#40 = .instr (.wrDtcrb .ch1 0xB6#8 0xFF#8) := by decide
theorem test_decode_rdIoara8 : decode 0x2B00000000#40 = .instr (.rdIoara8 .ch0) := by decide
theorem test_decode_wrIoara8 : decode 0x6B00B300FF#40 = .instr (.wrIoara8 .ch0 0xB3#8 0xFF#8) := by decide
theorem test_decode_rdIoarb8 : decode 0x3C00000000#40 = .instr (.rdIoarb8 .ch1) := by decide
theorem test_decode_wrIoarb8 : decode 0x7C000000FF#40 = .instr (.wrIoarb8 .ch1 0#8 0xFF#8) := by decide
theorem test_decode_reset : decode 0x8000ABCDEF#40 = .instr .reset := by decide
theorem test_decode_trig : decode 0x81FFFD0000#40 = .instr (.trig 0xFFFD#16) := by decide
theorem test_decode_dreq_asserted : decode 0x8201000000#40 = .instr (.dreq 0#8 true) := by decide
theorem test_decode_dreq_cleared : decode 0x8200FF0000#40 = .instr (.dreq 255#8 false) := by decide
theorem test_decode_clrdte : decode 0x8300030000#40 = .instr (.clrdte 3#16) := by decide
theorem test_decode_last : decode 0x8400020000#40 = .instr (.last 2#16) := by decide
theorem test_decode_done : decode 0x8500010000#40 = .instr (.done 1#16) := by decide
/- Section 3.4: reserved operation codes. -/
theorem test_decode_reserved_controller : decode 0x0200000000#40 = .reservedOpcode := by decide
theorem test_decode_reserved_c1 : decode 0x5000000000#40 = .reservedOpcode := by decide
theorem test_decode_reserved_channel : decode 0x3D00000000#40 = .reservedOpcode := by decide
theorem test_decode_reserved_event : decode 0x9000000000#40 = .reservedOpcode := by decide
/- The numbering of spec/opcode_table.json (R96): one 40-bit word. -/
theorem test_table_word : decodeTableWord 40 0x8500010000 = some (.done 1#16) := by decide

/-! ### Single steps -/

/-- A submodule with the registers of section 2's `S0` and a blank TransferState. -/
def testSub (c : Chan) (u : Sub) (mar : Addr) (ioar etcr : Half) : Submodule where
  mar := mar
  ioar := ioar
  etcr := etcr
  dtcr := 0#8
  ts := { source := 0#24, dest := 0#24, incs := .zero, incd := .zero, count := 0#17, mode16 := false,
          autoreq := false, suspended := true, id := packedId c u }
  inflight := false

/-- A channel of `S0`. -/
def testChan (a b : Submodule) : Channel where
  fae := false
  sae := false
  dta := 0#2
  dte := 0#2
  dtie := 0#2
  dmacr := 0#16
  tend := false
  subA := a
  subB := b

/-- The state `S0` of 95_test_vectors.md section 2. -/
def s0 : State where
  dmabcr := 0#16
  dmawer := 0#8
  dreqPrev0 := false
  dreqPrev1 := false
  ch0 := testChan (testSub .ch0 .subA 0xAAAAAA#24 0xA0A0#16 0xA1A1#16) (testSub .ch0 .subB 0xBBBBBB#24 0xB0B0#16 0xB1B1#16)
  ch1 := testChan (testSub .ch1 .subA 0xCCCCCC#24 0xC0C0#16 0xC1C1#16) (testSub .ch1 .subB 0xDDDDDD#24 0xD0D0#16 0xD1D1#16)
  hazard := false
  halted := false
  out := []
  inbox := []
  outcome := .idle
  resets := 0

/-- `S0` with a channel's mode, enable bits and control word set. -/
def cfg (c : Chan) (fae : Bool) (dte : BitVec 2) (dmacr : Half) (s : State) : State :=
  s.setChan c { s.chan c with fae := fae, dte := dte, dmacr := dmacr }

/-- `S0` with both DTCR registers of channel 0 set. -/
def legacy (a b : Byte) : State := (s0.setDtcr .ch0 .subA a).setDtcr .ch0 .subB b

/-- One field of the next state after serving a word, if there is a next state. -/
def after {α : Type} (w : TxWord) (s : State) (f : State → α) : Option α :=
  match step (placeWord w s) with
  | .next t => some (f t)
  | .fault _ => none
  | .refused _ => none

/-- The response of a word that goes well. -/
def reads (w : TxWord) (s : State) : Option TxOutcome := after w s State.outcome

/-- The refusal of a word. -/
def refusal (w : TxWord) (s : State) : Option Refusal :=
  match step (placeWord w s) with
  | .next _ => none
  | .fault _ => none
  | .refused r => some r

/- Reads: the values of `S0` (section 2); the first is the last row of section 3.4. -/
theorem test_rdMarah : reads 0x2000FFFFFF#40 s0 = some (.ok (.word 0x00AA#16)) := by decide
theorem test_rdMaral : reads 0x3100000000#40 s0 = some (.ok (.word 0xCCCC#16)) := by decide
theorem test_rdMarbh : reads 0x2400000000#40 s0 = some (.ok (.word 0x00BB#16)) := by decide
theorem test_rdMarbl : reads 0x3500000000#40 s0 = some (.ok (.word 0xDDDD#16)) := by decide
theorem test_rdIoara : reads 0x2200000000#40 s0 = some (.ok (.word 0xA0A0#16)) := by decide
theorem test_rdIoarb : reads 0x3600000000#40 s0 = some (.ok (.word 0xD0D0#16)) := by decide
theorem test_rdIoara8 : reads 0x3B00000000#40 s0 = some (.ok (.word 0x00C0#16)) := by decide
theorem test_rdIoarb8 : reads 0x3C00000000#40 s0 = some (.ok (.word 0x00D0#16)) := by decide
theorem test_rdEtcra : reads 0x2300000000#40 s0 = some (.ok (.word 0xA1A1#16)) := by decide
theorem test_rdEtcrb : reads 0x3700000000#40 s0 = some (.ok (.word 0xD1D1#16)) := by decide
theorem test_rdDmacr : reads 0x2800000000#40 (cfg .ch0 false 0#2 0xF00F#16 s0) = some (.ok (.word 0xF00F#16)) := by decide
theorem test_rdDtcra : reads 0x2900000000#40 (legacy 0x7F#8 0x00#8) = some (.ok (.word 0x007F#16)) := by decide
theorem test_rdDtcrb : reads 0x2A00000000#40 (legacy 0x7F#8 0x00#8) = some (.ok (.word 0x0000#16)) := by decide
theorem test_rdDmabcr : reads 0x0000000000#40 { s0 with dmabcr := 0xA5C3#16 } = some (.ok (.word 0xA5C3#16)) := by decide
theorem test_rdDmawer : reads 0x0100000000#40 { s0 with dmawer := 0xA5#8 } = some (.ok (.word 0x00A5#16)) := by decide
/- Writes: section 3.3, by row. -/
theorem test_wrMarah_row2 : after 0x60FFABFF0F#40 (s0.setMar .ch0 .subA 0x12AAAA#24) (·.mar .ch0 .subA) = some 0x1BAAAA#24 := by decide
theorem test_wrMaral_row5 : after 0x61BEEFFF00#40 (s0.setMar .ch0 .subA 0x1B3456#24) (·.mar .ch0 .subA) = some 0x1BBE56#24 := by decide
theorem test_wrMarbh_row34 : after 0x7400CD00FF#40 s0 (·.mar .ch1 .subB) = some 0xCDDDDD#24 := by decide
theorem test_wrMarbl_row35 : after 0x75EF01FFFF#40 s0 (·.mar .ch1 .subB) = some 0xDDEF01#24 := by decide
theorem test_wrIoara_row9 : after 0x621234FFFF#40 s0 (·.ioar .ch0 .subA) = some 0x1234#16 := by decide
theorem test_wrIoara_row15 : refusal 0x62567800FF#40 s0 = some .partialMaskOnFullWidth := by decide
theorem test_wrIoara8_row13 : after 0x6B12B400FF#40 s0 (·.ioar .ch0 .subA) = some 0xFFB4#16 := by decide
theorem test_wrIoarb : after 0x66FFD0FFFF#40 s0 (·.ioar .ch0 .subB) = some 0xFFD0#16 := by decide
theorem test_wrIoarb8 : after 0x7C000000FF#40 s0 (·.ioar .ch1 .subB) = some 0xFF00#16 := by decide
theorem test_wrEtcra_row19 : after 0x63003400FF#40 (s0.setEtcr .ch0 .subA 0x1200#16) (·.etcr .ch0 .subA) = some 0x1234#16 := by decide
theorem test_wrEtcrb : after 0x67000800FF#40 s0 (·.etcr .ch0 .subB) = some 0xB108#16 := by decide
theorem test_wrDmacr_row22 : after 0x6800000FF0#40 (cfg .ch0 false 0#2 0xFFFF#16 s0) (·.dmacr .ch0) = some 0xF00F#16 := by decide
theorem test_wrDmawer_row26 : after 0x41123400FF#40 s0 State.dmawer = some 0x34#8 := by decide
theorem test_wrDmawer_row28 : refusal 0x4100FF007F#40 s0 = some .partialMaskOnFullWidth := by decide
/- WR.DMABCR: section 3.2, rows 0x00F0 and 0xFFFF. -/
theorem test_wrDmabcr_order : after 0x4000F0FFFF#40 s0 State.out =
    some [.handoff 1#2, .handoff 0#2, .handoff 3#2, .handoff 2#2] := by decide
theorem test_wrDmabcr_flags : after 0x40FFFFFFFF#40 s0 (fun t => ((t.chan .ch0).fae, t.dte .ch1, t.out)) =
    some (true, 0b11#2, [.handoff 0#2, .handoff 2#2]) := by decide
/- DTCR writes: section 3.5, rows 0xDE 0xB6 and 0x87 0x8B. -/
theorem test_wrDtcrb_translates : after 0x6A00B600FF#40 (legacy 0xDE#8 0x00#8) (fun t => (t.dmacr .ch0, t.out)) =
    some (0xA062#16, [.handoff 0#2]) := by decide
theorem test_wrDtcrb_fatal : after 0x6A008B00FF#40 (legacy 0x87#8 0x00#8) (fun t => (t.dmacr .ch0, t.halted)) =
    some (0x180B#16, true) := by decide
theorem test_wrDtcra_translates : after 0x6900B300FF#40 (legacy 0x00#8 0xA2#8) (fun t => (t.dmacr .ch0, t.out)) =
    some (0x6B4A#16, [.handoff 1#2, .handoff 0#2]) := by decide
theorem test_wrDtcra_alone : after 0x69007F00FF#40 s0 (fun t => (t.dtcr .ch0 .subA, t.out)) = some (0x7F#8, []) := by decide
/- Requests: section 3.7, the DTF rows, and DREQ rows 3 and 7. -/
theorem test_trig_edge : after 0x81FFFD0000#40 (cfg .ch0 true 0b01#2 0x000A#16 s0) (fun t => (t.outcome, (t.ts .ch0 .subA).suspended)) =
    some (.ok (.bit true), false) := by decide
theorem test_trig_level : reads 0x81FFFE0000#40 (cfg .ch0 true 0b01#2 0x000A#16 s0) = some (.ok (.bit false)) := by decide
theorem test_dreq_edge : after 0x8201010000#40 (cfg .ch1 true 0b01#2 0x0002#16 s0) (fun t => ((t.ts .ch1 .subA).suspended, t.dreqPrev1)) =
    some (false, true) := by decide
theorem test_dreq_unsupported : after 0x8201020000#40 s0 (fun t => (t.outcome, t.dreqPrev0, t.dreqPrev1)) =
    some (.ignored, false, false) := by decide
/- CLRDTE (R106): the block-control word only. -/
theorem test_clrdte : after 0x8300030000#40 { cfg .ch1 false 0b11#2 0#16 s0 with dmabcr := 0x00F0#16 } (fun t => (t.dmabcr, t.dte .ch1)) =
    some (0x0070#16, 0b11#2) := by decide
theorem test_clrdte_refused : refusal 0x8300040000#40 s0 = some .idOutOfRange := by decide
/- LAST (R190, R207). -/
theorem test_last : after 0x8400020000#40 s0 (fun t => ((t.chan .ch1).tend, t.out)) = some (true, [.endSignal .ch1 true]) := by decide
/- DONE (R193, R194): a repeat-mode reload and a one-shot completion. -/
theorem test_done_repeat : after 0x8500000000#40 (cfg .ch0 false 0b01#2 0x2000#16 s0) (fun t => ((t.ts .ch0 .subA).count, t.dte .ch0, t.out)) =
    some (0xA1#17, 0b01#2, [.endSignal .ch0 false, .handoff 0#2]) := by decide
theorem test_done_oneShot : after 0x8500010000#40 { cfg .ch0 false 0b11#2 0#16 s0 with dmabcr := 0x0030#16 } (fun t => (t.dmabcr, t.dte .ch0)) =
    some (0x0010#16, 0b01#2) := by decide
/- RESET (R220): served while halted. -/
theorem test_reset : after 0x8000ABCDEF#40 { s0 with halted := true, dmabcr := 0x0030#16 } (fun t => (t.halted, t.dmabcr)) =
    some (false, 0#16) := by decide
theorem test_halted_refuses : refusal 0x0000000000#40 { s0 with halted := true } = some .halted := by decide
/- From reset with nothing placed the block is idle; a placed word is the next to be served (log 1). -/
theorem test_reset_serves : (match step (State.reset.withFetchWord 40 0x4100A500FF) with | .next t => t.dmawer | _ => 0#8) = 0xA5#8 := by decide

/-! ### Witnesses: a state and operands that meet all hypotheses of a statement -/

/-- `S0` with channel 0 in full-address mode, enabled. -/
abbrev fullOn : State := cfg .ch0 true 0b01#2 0x0002#16 s0

/-- `S0` with channel 0 set so that every start attempt on it is fatal. -/
abbrev faulty0 : State := cfg .ch0 true 0b01#2 0x0800#16 s0

/-- `S0` with channel 1 set so. -/
abbrev faulty1 : State := cfg .ch1 true 0b01#2 0x0800#16 s0

/-- A repeat-mode channel 0. -/
abbrev repeating : State := cfg .ch0 false 0b11#2 0x2020#16 s0

theorem witness_DecodeFollowsOpcodeTable : (⟨"DONE", 0x8500000000#40, 0xFF00000000#40⟩ : OpcodeRow) ∈ opcodeRows := by decide
theorem witness_PseudoAddressWriteStoresTheAddress : s0.halted = false := rfl
theorem witness_StepRunsTheDecodedTransaction :
    (placeWord 0x8500010000#40 s0).inbox = .transaction 0x8500010000#40 :: [] ∧ decode 0x8500010000#40 = .instr (.done 1#16) := by
  decide
theorem witness_StepServesTheBusMaster_nothing : s0.inbox = [] := rfl
theorem witness_StepServesTheBusMaster_held :
    ({ s0.setInflight .ch1 .subB true with inbox := [.busMaster 3#2 ⟨1#24, 2#24, 3#17, false⟩] } : State).inbox =
      .busMaster (packedId .ch1 .subB) ⟨1#24, 2#24, 3#17, false⟩ :: [] ∧
    ({ s0.setInflight .ch1 .subB true with inbox := [.busMaster 3#2 ⟨1#24, 2#24, 3#17, false⟩] } : State).inflight .ch1 .subB = true := by
  decide
theorem witness_StepServesTheBusMaster_breach :
    ({ s0 with inbox := [.busMaster 0#2 ⟨1#24, 2#24, 3#17, false⟩] } : State).inbox =
      .busMaster (packedId .ch0 .subA) ⟨1#24, 2#24, 3#17, false⟩ :: [] ∧
    ({ s0 with inbox := [.busMaster 0#2 ⟨1#24, 2#24, 3#17, false⟩] } : State).inflight .ch0 .subA = false := by
  decide
theorem witness_RefusalsAreExactlyTheListed :
    (placeWord 0x8300040000#40 s0).inbox = .transaction 0x8300040000#40 :: [] ∧
    refusal 0x8300040000#40 s0 = some .idOutOfRange ∧ refusal 0x6200000FFF#40 s0 = some .partialMaskOnFullWidth ∧
    refusal 0xFF00000000#40 s0 = some .reservedOpcode ∧ refusal 0x8300040000#40 { s0 with halted := true } = some .halted := by
  decide
theorem witness_ExecCompletesExactlyWhenAllowed :
    s0.halted = false ∧ (Instr.done 3#16).WellFormed ∧ ¬ (Instr.done 4#16).WellFormed := by decide
theorem witness_OnlyResetLeavesHalted :
    ∃ t, (placeWord 0x8000000000#40 { s0 with halted := true }).halted = true ∧
      step (placeWord 0x8000000000#40 { s0 with halted := true }) = .next t ∧ t.halted = false := ⟨_, rfl, rfl, rfl⟩
theorem witness_ControllerReads : s0.halted = false := rfl
theorem witness_AddressRegisterReads : s0.halted = false := rfl
theorem witness_IoAddressReads : s0.halted = false := rfl
theorem witness_CountAndControlReads : s0.halted = false := rfl
theorem witness_WriteEnableWrites : s0.halted = false ∧ 0xFE#8 ≠ 0xFF#8 := by decide
theorem witness_AddressHighWrites : s0.halted = false ∧
    ((Sub.subA = .subA ∧ Instr.wrMarah .ch0 0x12#8 0x0F#8 = .wrMarah .ch0 0x12#8 0x0F#8) ∨
     (Sub.subA = .subB ∧ Instr.wrMarah .ch0 0x12#8 0x0F#8 = .wrMarbh .ch0 0x12#8 0x0F#8)) := by decide
theorem witness_AddressLowWrites : s0.halted = false ∧
    ((Sub.subB = .subA ∧ Instr.wrMarbl .ch1 0x1234#16 0xFF00#16 = .wrMaral .ch1 0x1234#16 0xFF00#16) ∨
     (Sub.subB = .subB ∧ Instr.wrMarbl .ch1 0x1234#16 0xFF00#16 = .wrMarbl .ch1 0x1234#16 0xFF00#16)) := by decide
theorem witness_IoAddressWrites : s0.halted = false ∧ 0xFFFE#16 ≠ 0xFFFF#16 := by decide
theorem witness_IoAliasWrites : s0.halted = false ∧ 0x7F#8 ≠ 0xFF#8 := by decide
theorem witness_CountWrites : s0.halted = false ∧
    ((Sub.subA = .subA ∧ Instr.wrEtcra .ch0 0#16 0xFF00#16 = .wrEtcra .ch0 0#16 0xFF00#16) ∨
     (Sub.subA = .subB ∧ Instr.wrEtcra .ch0 0#16 0xFF00#16 = .wrEtcrb .ch0 0#16 0xFF00#16)) := by decide
theorem witness_ControlWrites : s0.halted = false := rfl
theorem witness_BlockControlWriteStarts : s0.halted = false ∧
    faultsOnAttempt (rederived .ch0 (mergedWord s0 0x00F0#16 0xFFFF#16) s0) = false ∧
    faultsOnAttempt (rederived .ch1 (mergedWord s0 0x00F0#16 0xFFFF#16) s0) = false := by decide
theorem witness_FlagsFollowTheBlockControlWord :
    ∃ t, exec (.wrDmabcr 0xA5C3#16 0xFFFF#16) s0 = .next t ∧ t.halted = false := ⟨_, rfl, by decide⟩
theorem witness_BlockControlWriteFatal_ch0 : faulty0.halted = false ∧
    faultsOnAttempt (rederived .ch0 (mergedWord faulty0 0x4010#16 0xFFFF#16) faulty0) = true := by decide
theorem witness_BlockControlWriteFatal_ch1 : faulty1.halted = false ∧
    faultsOnAttempt (rederived .ch0 (mergedWord faulty1 0x8040#16 0xFFFF#16) faulty1) = false ∧
    faultsOnAttempt (rederived .ch1 (mergedWord faulty1 0x8040#16 0xFFFF#16) faulty1) = true := by decide
theorem witness_ClearEnableClearsOneBit : s0.halted = false ∧ (3#16).toNat < 4 ∧ 4 ≤ (4#16).toNat := by decide
theorem witness_FullAddressStartParameters : (fullOn.chan .ch0).fae = true ∧ (fullOn.dmacr .ch0).getLsbD 11 = false := by decide
theorem witness_FullAddressStartParameters_block : (faulty0.chan .ch0).fae = true ∧ (faulty0.dmacr .ch0).getLsbD 11 = true := by decide
theorem witness_ShortAddressStartParameters : (s0.chan .ch1).fae = false := rfl
theorem witness_CountsAtHandoff_full :
    ∃ t, start .ch0 .subA (fullOn.setEtcr .ch0 .subA 0#16) = .ret () t ∧ (t.chan .ch0).fae = true := ⟨_, rfl, rfl⟩
theorem witness_CountsAtHandoff_short :
    ∃ t, start .ch0 .subA s0 = .ret () t ∧ (s0.chan .ch0).fae = false ∧ isRepeat (s0.chan .ch0) .subA = false :=
  ⟨_, rfl, by decide⟩
theorem witness_CountsAtHandoff_repeat :
    ∃ t, start .ch0 .subA (repeating.setEtcr .ch0 .subA 0x1200#16) = .ret () t ∧ (repeating.chan .ch0).fae = false ∧
      isRepeat (repeating.chan .ch0) .subA = true := ⟨_, rfl, by decide⟩
theorem witness_FullAddressModeStartsOnlyA :
    ∃ t, exec (.wrDmabcr 0x0020#16 0xFFFF#16) s0 = .next t ∧ s0.inflight .ch0 .subB = false ∧
      t.inflight .ch0 .subB = true := ⟨_, rfl, by decide, by decide⟩
theorem witness_TriggerImmediateStarts : fullOn.halted = false ∧ faultsOnAttempt fullOn.ch0 = false ∧
    faultsOnAttempt fullOn.ch1 = false := by decide
theorem witness_TriggerRequestUnsuspends : fullOn.halted = false ∧ faultsOnAttempt fullOn.ch0 = false ∧
    faultsOnAttempt fullOn.ch1 = false ∧
    ((0xFFFD#16 = 0xFFFE#16 ∧ 0b010 = 0b011) ∨ (0xFFFD#16 = 0xFFFD#16 ∧ 0b010 = 0b010)) := by decide
theorem witness_PeripheralVectorsDoNothing : fullOn.halted = false ∧ faultsOnAttempt fullOn.ch0 = false ∧
    faultsOnAttempt fullOn.ch1 = false ∧ (0xFFFC#16).toInt ≠ -1 ∧ (0xFFFC#16).toInt ≠ -2 ∧ (0xFFFC#16).toInt ≠ -3 := by decide
theorem witness_TriggerFatal_ch0 : faulty0.halted = false ∧ faultsOnAttempt faulty0.ch0 = true := by decide
theorem witness_TriggerFatal_ch1 : faulty1.halted = false ∧ faultsOnAttempt faulty1.ch0 = false ∧
    faultsOnAttempt faulty1.ch1 = true ∧ 0xFFFE#16 ≠ 0xFFFF#16 := by decide
theorem witness_UnsupportedLineIsIgnored : 2 ≤ (2#8).toNat ∧ 2 ≤ (255#8).toNat ∧ s0.halted = false ∧
    ({ s0 with halted := true } : State).halted = true := by decide
theorem witness_LineClearedIsRecorded : s0.halted = false := rfl
theorem witness_LineAssertedUnsuspends : fullOn.halted = false ∧ faultsOnAttempt (fullOn.chan .ch0) = false := by decide
theorem witness_LineFatalRecordsNothing : faulty1.halted = false ∧ faultsOnAttempt (faulty1.chan .ch1) = true := by decide
theorem witness_LegacyControlWord : legacyFull 0x84#8 = false ∧ legacyFull 0x86#8 = true := by decide
theorem witness_LegacyWriteAloneOnlyStores : s0.halted = false ∧
    ((0x80#8).getLsbD 7 && (s0.dtcr .ch0 Sub.subA.other).getLsbD 7) = false ∧ 0x80#8 ≠ 0xFF#8 := by decide
theorem witness_LegacyWriteTranslatesAndStarts : (legacy 0xDE#8 0x00#8).halted = false ∧
    0xDE#8 = ((legacy 0xDE#8 0x00#8).setDtcr .ch0 .subB 0xB6#8).dtcr .ch0 .subA ∧
    0xB6#8 = ((legacy 0xDE#8 0x00#8).setDtcr .ch0 .subB 0xB6#8).dtcr .ch0 .subB ∧
    (0xDE#8).getLsbD 7 = true ∧ (0xB6#8).getLsbD 7 = true ∧ (legacyFull 0xDE#8 && (0xDE#8).getLsbD 0) = false := by decide
theorem witness_LegacyBlockModeIsFatal : (legacy 0x00#8 0x80#8).halted = false ∧
    0x87#8 = ((legacy 0x00#8 0x80#8).setDtcr .ch0 .subA 0x87#8).dtcr .ch0 .subA ∧
    0x80#8 = ((legacy 0x00#8 0x80#8).setDtcr .ch0 .subA 0x87#8).dtcr .ch0 .subB ∧
    (0x87#8).getLsbD 7 = true ∧ (0x80#8).getLsbD 7 = true ∧ (legacyFull 0x87#8 && (0x87#8).getLsbD 0) = true := by decide
theorem witness_LegacyTranslationIsIdempotent :
    ∃ r t, translateLegacy .ch0 (legacy 0xB3#8 0xA2#8) = .ret r t := ⟨_, _, rfl⟩
theorem witness_LastUnitDrivesTheEndLine : s0.halted = false ∧ 4 ≤ (4#16).toNat := by decide
theorem witness_FullAddressCompletion : fullOn.halted = false ∧ (fullOn.chan .ch0).fae = true ∧
    (fullOn.dmacr .ch0).getLsbD 11 = false := by decide
theorem witness_ShortAddressOneShotCompletion : s0.halted = false ∧ (s0.chan .ch1).fae = false ∧
    isRepeat (s0.chan .ch1) .subB = false := by decide
theorem witness_RepeatModeCompletionReloads : repeating.halted = false ∧ (repeating.chan .ch0).fae = false ∧
    isRepeat (repeating.chan .ch0) .subB = true := by decide
theorem witness_BlockModeCompletionIsFatal : faulty0.halted = false ∧ (faulty0.chan .ch0).fae = true ∧
    (faulty0.dmacr .ch0).getLsbD 11 = true := by decide
theorem witness_RepeatAndOneShotLaws_repeat : ∃ t, exec (.done (idOperand .ch0 .subA)) repeating = .next t ∧
    (repeating.chan .ch0).fae = false ∧ isRepeat (repeating.chan .ch0) .subA = true := ⟨_, rfl, by decide⟩
theorem witness_RepeatAndOneShotLaws_oneShot :
    ∃ t, exec (.done (idOperand .ch0 .subB)) (s0.setChan .ch0 { s0.ch0 with dtie := 0b10#2 }) = .next t ∧
      isRepeat ({ s0.ch0 with dtie := 0b10#2 } : Channel) .subB = false ∧ flagBit 0b10#2 .subB = true := ⟨_, rfl, by decide⟩
theorem witness_AddressAndCountRegistersHold : ∃ t, exec (.wrMarah .ch0 0x12#8 0xFF#8) s0 = .next t ∧
    writesMar (.wrMarah .ch0 0x12#8 0xFF#8) .ch0 .subB = false ∧ writesIoar (.wrMarah .ch0 0x12#8 0xFF#8) .ch0 .subA = false ∧
    writesEtcr (.wrMarah .ch0 0x12#8 0xFF#8) .ch0 .subA = false := ⟨_, rfl, by decide⟩
theorem witness_ChannelsAreIndependent : ∃ t, exec (.done 1#16) s0 = .next t ∧ mayTouch (.done 1#16) .ch1 = false :=
  ⟨_, rfl, by decide⟩
theorem witness_WriteEnableGatesNothing : Instr.wrDmabcr 0x0030#16 0xFFFF#16 ≠ .rdDmawer := by decide
theorem witness_ProgressFieldsReadByNothing :
    hideProgress s0 = hideProgress (s0.setTs .ch0 .subA { s0.ts .ch0 .subA with count := 5#17 }) ∧
    s0 ≠ s0.setTs .ch0 .subA { s0.ts .ch0 .subA with count := 5#17 } := by decide
theorem witness_HazardIsStickyAndInert : ∃ t, exec (.wrDmabcr 0x0030#16 0xFFFF#16) { s0 with hazard := true } = .next t ∧
    Instr.wrDmabcr 0x0030#16 0xFFFF#16 ≠ .reset := ⟨_, rfl, by decide⟩
theorem witness_EventsByTransaction : ∃ t, exec (.done 0#16) s0 = .next t ∧ Instr.done 0#16 ≠ .reset := ⟨_, rfl, by decide⟩
theorem witness_FatalReasonsByTransaction_start :
    ∃ t, exec (.trig 0#16) faulty0 = .next t ∧ t.outcome = .fatal .blockModeStartTest := ⟨_, rfl, rfl⟩
theorem witness_FatalReasonsByTransaction_done :
    ∃ t, exec (.done 0#16) faulty0 = .next t ∧ t.outcome = .fatal .blockModeDone := ⟨_, rfl, rfl⟩
theorem witness_InvariantKeptByEveryStep : ∃ t, Inv (placeWord 0x4000F0FFFF#40 s0) ∧ step (placeWord 0x4000F0FFFF#40 s0) = .next t := by
  refine ⟨_, ⟨?_, ?_, ?_, ?_, ?_⟩, rfl⟩
  · intro c u; cases c <;> cases u <;> rfl
  · intro c; cases c <;> rfl
  · intro c u h; cases c <;> cases u <;> cases h
  · intro _ e he; cases he
  · intro h; cases h

end Sys2Proof.Tests
end

section
/-! The decoder on a word built from its three fields (R70 to R72), and the Controller's registers at
reset (10_state.md R42). -/

namespace Sys2Proof

/-- A packed word decodes by its operation code alone, its two other fields passed on unchanged. -/
@[simp] theorem decode_packWord (op : Byte) (data mask : Half) :
    decode (packWord op data mask) = decodeOp op data mask := by
  rw [decode, opField_packWord, dataField_packWord, maskField_packWord]

/-- Operation codes with bit 7 set are the events of R72. -/
theorem decodeOp_event {op : Byte} (hop : op.getLsbD 7 = true) (data mask : Half) :
    decodeOp op data mask = decodeEvent (op.extractLsb' 0 7).toNat data := if_pos hop

end Sys2Proof

namespace Sys2Proof.Claims

/-- An operation code with bit 7 set encodes `f` as soon as its event index does (R72). -/
theorem encodes_event {op : Nat} {f : Half → Half → Instr} (hop : (BitVec.ofNat 8 op).getLsbD 7 = true)
    (hf : ∀ data mask, decodeEvent ((BitVec.ofNat 8 op).extractLsb' 0 7).toNat data = .instr (f data mask)) :
    encodes op f := by
  intro data mask
  rw [decode_packWord, decodeOp_event hop, hf data mask]

theorem encodes_reset : encodes 0x80 (fun _ _ => .reset) :=
  encodes_event (by decide) (fun _ _ => rfl)

end Sys2Proof.Claims

namespace Sys2Proof.Machine

@[simp] theorem State.afterReset_dmabcr (draw : Nat) : (State.afterReset draw).dmabcr = 0x0000#16 := rfl
@[simp] theorem State.afterReset_dmawer (draw : Nat) : (State.afterReset draw).dmawer = 0x00#8 := rfl

@[simp] theorem resetBlock_dmabcr (s : State) : (resetBlock s).dmabcr = 0x0000#16 :=
  State.afterReset_dmabcr (s.resets + 1)
@[simp] theorem resetBlock_dmawer (s : State) : (resetBlock s).dmawer = 0x00#8 :=
  State.afterReset_dmawer (s.resets + 1)

/-- RESET passes no gate: it completes in every state, halted or not (R203, R220). -/
theorem exec_reset (s : State) : exec .reset s = .next (resetBlock s) := rfl

/-- Settles O49: the initial state and the state after RESET are both `State.afterReset` of some draw,
and no draw reaches the Controller's two registers. -/
theorem controllerRegistersResetToZero : Obligations.ControllerRegistersResetToZero :=
  ⟨Claims.encodes_reset, State.afterReset_dmabcr 0, State.afterReset_dmawer 0,
    fun s => ⟨resetBlock s, exec_reset s, resetBlock_dmabcr s, resetBlock_dmawer s⟩⟩

end Sys2Proof.Machine
end

section
/-! The Controller's register transactions, CLRDTE and LAST (40_controller.md R100, R102, R103, R106,
R107): their operation codes, the operand tests of a running block, and their next states. -/

namespace Sys2Proof

/-- Operation codes whose bits 7, 5 and 4 are clear are the Controller's registers (R73). -/
theorem decodeOp_controller {op : Byte} (hevent : op.getLsbD 7 = false) (hchannel : op.getLsbD 5 = false)
    (hnumber : op.getLsbD 4 = false) (data mask : Half) :
    decodeOp op data mask = decodeController (op.getLsbD 6) (op.extractLsb' 0 4).toNat data mask := by
  simp only [decodeOp, hevent, hchannel, hnumber, Bool.false_eq_true, if_false]

theorem lowLane_eq_setWidth (h : Half) : lowLane h = h.setWidth 8 :=
  (BitVec.setWidth_eq_extractLsb' (by decide)).symm

end Sys2Proof

namespace Sys2Proof.Claims

open Sys2Proof.Machine

/-- An operation code with bits 7, 5 and 4 clear encodes `f` as soon as its register index does (R73). -/
theorem encodes_controller {op : Nat} {f : Half → Half → Instr} (hevent : (BitVec.ofNat 8 op).getLsbD 7 = false)
    (hchannel : (BitVec.ofNat 8 op).getLsbD 5 = false) (hnumber : (BitVec.ofNat 8 op).getLsbD 4 = false)
    (hf : ∀ data mask, decodeController ((BitVec.ofNat 8 op).getLsbD 6) ((BitVec.ofNat 8 op).extractLsb' 0 4).toNat
      data mask = .instr (f data mask)) :
    encodes op f := by
  intro data mask
  rw [decode_packWord, decodeOp_controller hevent hchannel hnumber, hf data mask]

theorem encodes_rdDmabcr : encodes 0x00 (fun _ _ => .rdDmabcr) :=
  encodes_controller (by decide) (by decide) (by decide) (fun _ _ => rfl)

theorem encodes_rdDmawer : encodes 0x01 (fun _ _ => .rdDmawer) :=
  encodes_controller (by decide) (by decide) (by decide) (fun _ _ => rfl)

theorem encodes_wrDmawer : encodes 0x41 (fun data mask => .wrDmawer (data.setWidth 8) (mask.setWidth 8)) := by
  refine encodes_controller (by decide) (by decide) (by decide) (fun data mask => ?_)
  rw [← lowLane_eq_setWidth, ← lowLane_eq_setWidth]
  rfl

theorem encodes_clrdte : encodes 0x83 (fun data _ => .clrdte data) :=
  encodes_event (by decide) (fun _ _ => rfl)

theorem encodes_last : encodes 0x84 (fun data _ => .last data) :=
  encodes_event (by decide) (fun _ _ => rfl)

/-! ### Packed identifiers as operands -/

/-- An operand the identifier test passes is not truncated by its 2-bit field (R89). -/
theorem idField_toNat {id : Half} (hid : id.toNat < 4) : (idField id).toNat = id.toNat := by
  simp [idField, Nat.mod_eq_of_lt hid]

theorem idOperand_toNat_lt (c : Chan) (u : Sub) : (idOperand c u).toNat < 4 := by
  cases c <;> cases u <;> decide

@[simp] theorem idField_idOperand (c : Chan) (u : Sub) : idField (idOperand c u) = packedId c u := by
  cases c <;> cases u <;> rfl

end Sys2Proof.Claims

namespace Sys2Proof.Machine

open Sys2Proof.Claims

/-! ### The frame of a transaction while the block runs -/

theorem complete_answered (s t : State) (r : Response) (h : s.halted = false) :
    complete s r t = .next (answered r t) :=
  complete_running s t r h

theorem finish_answered (r : Response) (s : State) : finish (.ret r s) = .next (answered r s) := finish_ret r s

theorem withFullMask_full {n : Nat} (s : State) (a : Answer) (h : s.halted = false) :
    withFullMask s (BitVec.allOnes n) a = a := by
  rw [withFullMask_running s _ a h, if_pos rfl]

theorem withFullMask_partial {n : Nat} {mask : BitVec n} (s : State) (a : Answer) (h : s.halted = false)
    (hmask : mask ≠ BitVec.allOnes n) : withFullMask s mask a = .refused .partialMaskOnFullWidth := by
  rw [withFullMask_running s mask a h, if_neg hmask]

theorem withId_inRange {id : Half} (s : State) (f : BitVec 2 → Answer) (h : s.halted = false) (hid : id.toNat < 4) :
    withId s id f = f (idField id) := by
  rw [withId_running s id f h, if_pos hid]

theorem withId_outOfRange {id : Half} (s : State) (f : BitVec 2 → Answer) (h : s.halted = false)
    (hid : 4 ≤ id.toNat) : withId s id f = .refused .idOutOfRange := by
  rw [withId_running s id f h, if_neg (Nat.not_lt.mpr hid)]

/-! ### Register reads and writes of the Controller -/

theorem zext16_eq_append (b : Byte) : zext16 b = 0#8 ++ b := BitVec.setWidth_eq_append (by decide)

theorem exec_rdDmabcr (s : State) (h : s.halted = false) :
    exec .rdDmabcr s = .next (answered (.word s.dmabcr) s) :=
  complete_answered s s (.word s.dmabcr) h

theorem exec_rdDmawer (s : State) (h : s.halted = false) :
    exec .rdDmawer s = .next (answered (.word (0#8 ++ s.dmawer)) s) := by
  rw [← zext16_eq_append]
  exact complete_answered s s (.word (zext16 s.dmawer)) h

/-- Settles O11: each read is a transaction that always completes, with the register as its response. -/
theorem controllerReads : Obligations.ControllerReads :=
  ⟨encodes_rdDmabcr, encodes_rdDmawer, fun s h => ⟨exec_rdDmabcr s h, exec_rdDmawer s h⟩⟩

theorem exec_wrDmawer_full (d : Byte) (s : State) (h : s.halted = false) :
    exec (.wrDmawer d 0xFF#8) s = .next (answered .none { s with dmawer := d }) :=
  withFullMask_full s (finish (.ret .none { s with dmawer := d })) h

theorem exec_wrDmawer_partial (d : Byte) {m : Byte} (s : State) (h : s.halted = false) (hm : m ≠ 0xFF#8) :
    exec (.wrDmawer d m) s = .refused .partialMaskOnFullWidth :=
  withFullMask_partial s (finish (.ret .none { s with dmawer := d })) h hm

/-- Settles O15: the mask test of R54 has two sides, and `0xFF` is the one mask that passes it. -/
theorem writeEnableWrites : Obligations.WriteEnableWrites :=
  ⟨encodes_wrDmawer, fun d _ s h => ⟨exec_wrDmawer_full d s h, exec_wrDmawer_partial d s h⟩⟩

/-! ### CLRDTE -/

theorem exec_clrdte (id : Half) (s : State) :
    exec (.clrdte id) s = withId s id fun i => finish (.ret .none (clearEnable i s)) := rfl

theorem exec_clrdte_inRange {id : Half} (s : State) (h : s.halted = false) (hid : id.toNat < 4) :
    exec (.clrdte id) s = .next (answered .none (clearEnable (idField id) s)) := by
  rw [exec_clrdte, withId_inRange s _ h hid, finish_answered]

theorem exec_clrdte_outOfRange {id : Half} (s : State) (h : s.halted = false) (hid : 4 ≤ id.toNat) :
    exec (.clrdte id) s = .refused .idOutOfRange := by
  rw [exec_clrdte, withId_outOfRange s _ h hid]

theorem getLsbD_clearEnable (id : BitVec 2) (s : State) (k : Nat) :
    (clearEnable id s).dmabcr.getLsbD k = (s.dmabcr.getLsbD k && decide (k ≠ 4 + id.toNat)) :=
  getLsbD_clearBit s.dmabcr (4 + id.toNat) k

/-- With the block-control word put back, nothing of a cleared enable bit is left. -/
theorem clearEnable_frame (id : BitVec 2) (s : State) : { clearEnable id s with dmabcr := s.dmabcr } = s := rfl

/-- Settles O25: an identifier in range names the bit `4 + id` unshortened, and `clear_enable` clears that
bit of the block-control word alone. -/
theorem clearEnableClearsOneBit : Obligations.ClearEnableClearsOneBit := by
  refine ⟨encodes_clrdte, fun id s h => ⟨fun hid => ?_, exec_clrdte_outOfRange s h⟩⟩
  refine ⟨_, exec_clrdte_inRange s h hid, fun k _ => ?_, congrArg (answered .none) (clearEnable_frame (idField id) s)⟩
  have hbit := getLsbD_clearEnable (idField id) s k
  rwa [idField_toNat hid] at hbit

/-! ### LAST -/

@[simp] theorem State.setTend_tend (s : State) (c : Chan) : s.setTend c (s.chan c).tend = s :=
  State.setChan_chan_self s c

/-- The end signal of an auto-request transfer is not driven (R190, R191). -/
theorem driveEnd_auto {c : Chan} {u : Sub} {s : State} (level : Bool) (hauto : (s.ts c u).autoreq = true) :
    driveEnd c u level s = s := by
  simp [driveEnd, hauto]

/-- The end signal of any other transfer is driven to `level`, and the event tells it (R190, R191). -/
theorem driveEnd_request {c : Chan} {u : Sub} {s : State} (level : Bool) (hauto : (s.ts c u).autoreq = false) :
    driveEnd c u level s = { s.setTend c level with out := s.out ++ [.endSignal c level] } := by
  simp [driveEnd, hauto]

theorem lastUnit_eq (c : Chan) (u : Sub) (s : State) :
    lastUnit c u s =
      if (s.ts c u).autoreq then s else { s.setTend c true with out := s.out ++ [.endSignal c true] } := by
  split
  case isTrue hauto => exact driveEnd_auto true hauto
  case isFalse hauto => exact driveEnd_request true (Bool.eq_false_iff.mpr hauto)

theorem exec_last (id : Half) (s : State) :
    exec (.last id) s = withId s id fun i => finish (.ret .none (lastUnit (idChan i) (idSub i) s)) := rfl

theorem exec_last_idOperand (c : Chan) (u : Sub) (s : State) (h : s.halted = false) :
    exec (.last (idOperand c u)) s = .next (answered .none (lastUnit c u s)) := by
  rw [exec_last, withId_inRange s _ h (idOperand_toNat_lt c u), idField_idOperand, idChan_packedId, idSub_packedId,
    finish_answered]

theorem exec_last_outOfRange {id : Half} (s : State) (h : s.halted = false) (hid : 4 ≤ id.toNat) :
    exec (.last id) s = .refused .idOutOfRange := by
  rw [exec_last, withId_outOfRange s _ h hid]

/-- Settles O43: LAST on a submodule's identifier is `last_unit` of that submodule, whose one condition
is the transfer's auto-request flag. -/
theorem lastUnitDrivesTheEndLine : Obligations.LastUnitDrivesTheEndLine := by
  refine ⟨encodes_last, fun c u id s h => ⟨?_, exec_last_outOfRange s h⟩⟩
  rw [exec_last_idOperand c u s h, lastUnit_eq]

end Sys2Proof.Machine
end

section
/-! The channel register transactions but the DTCR writes (41_channel_registers.md R120 to R138, R140 to
R144): their operation codes, the views of an address register and of an I/O address register, the frame
of a register write, and their next states. -/

namespace Sys2Proof

/-- Operation codes with bit 7 clear and bit 5 set are the channel registers (R74). -/
theorem decodeOp_channel {op : Byte} (hevent : op.getLsbD 7 = false) (hchannel : op.getLsbD 5 = true)
    (data mask : Half) :
    decodeOp op data mask =
      if op.getLsbD 6 then decodeChannelWrite (Chan.ofBool (op.getLsbD 4)) (op.extractLsb' 0 4).toNat data mask
      else decodeChannelRead (Chan.ofBool (op.getLsbD 4)) (op.extractLsb' 0 4).toNat := by
  simp only [decodeOp, hevent, hchannel, Bool.false_eq_true, if_false, if_true]

end Sys2Proof

namespace Sys2Proof.Claims

open Sys2Proof.Machine

/-! ### Operation codes of the channel registers -/

/-- The bits of a channel read's operation code: a 4-bit register index carries into none above it. -/
theorem readCode_bits (c : Chan) {r : Nat} (hr : r < 16) :
    (BitVec.ofNat 8 (readCode c r)).getLsbD 7 = false ∧ (BitVec.ofNat 8 (readCode c r)).getLsbD 6 = false ∧
    (BitVec.ofNat 8 (readCode c r)).getLsbD 5 = true ∧
    Chan.ofBool ((BitVec.ofNat 8 (readCode c r)).getLsbD 4) = c ∧
    ((BitVec.ofNat 8 (readCode c r)).extractLsb' 0 4).toNat = r := by
  revert r
  cases c <;> decide

/-- As `readCode_bits`, bit 6 being set (R71). -/
theorem writeCode_bits (c : Chan) {r : Nat} (hr : r < 16) :
    (BitVec.ofNat 8 (writeCode c r)).getLsbD 7 = false ∧ (BitVec.ofNat 8 (writeCode c r)).getLsbD 6 = true ∧
    (BitVec.ofNat 8 (writeCode c r)).getLsbD 5 = true ∧
    Chan.ofBool ((BitVec.ofNat 8 (writeCode c r)).getLsbD 4) = c ∧
    ((BitVec.ofNat 8 (writeCode c r)).extractLsb' 0 4).toNat = r := by
  revert r
  cases c <;> decide

/-- A channel read's operation code encodes `i`, whatever the other fields, as soon as its register index
does (R74). -/
theorem encodes_channelRead {c : Chan} {r : Nat} {i : Instr} (hr : r < 16) (hi : decodeChannelRead c r = .instr i) :
    encodes (readCode c r) (fun _ _ => i) := by
  intro data mask
  obtain ⟨hevent, hwrite, hchannel, hchan, hindex⟩ := readCode_bits c hr
  rw [decode_packWord, decodeOp_channel hevent hchannel, hwrite, hchan, hindex, if_neg Bool.false_ne_true, hi]

/-- A channel write's operation code encodes `f` as soon as its register index does (R74). -/
theorem encodes_channelWrite {c : Chan} {r : Nat} {f : Half → Half → Instr} (hr : r < 16)
    (hf : ∀ data mask, decodeChannelWrite c r data mask = .instr (f data mask)) : encodes (writeCode c r) f := by
  intro data mask
  obtain ⟨hevent, hwrite, hchannel, hchan, hindex⟩ := writeCode_bits c hr
  rw [decode_packWord, decodeOp_channel hevent hchannel, hwrite, hchan, hindex, if_pos rfl, hf data mask]

/-- A channel write of byte operands takes the low lanes of `data` and `mask` (R75). -/
theorem encodes_channelByteWrite {c : Chan} {r : Nat} (f : Byte → Byte → Instr) (hr : r < 16)
    (hf : ∀ data mask, decodeChannelWrite c r data mask = .instr (f (lowLane data) (lowLane mask))) :
    encodes (writeCode c r) (fun data mask => f (data.setWidth 8) (mask.setWidth 8)) :=
  encodes_channelWrite hr fun data mask => by rw [hf, lowLane_eq_setWidth, lowLane_eq_setWidth]

end Sys2Proof.Claims

namespace Sys2Proof.Machine

open Sys2Proof.Claims

/-! ### Views of the address registers -/

theorem getLsbD_marHigh (a : Addr) {k : Nat} (hk : k < 8) : (marHigh a).getLsbD k = a.getLsbD (16 + k) := by
  simp [marHigh, hk]

theorem getLsbD_marLow (a : Addr) {k : Nat} (hk : k < 16) : (marLow a).getLsbD k = a.getLsbD k := by
  simp [marLow, hk]

/-- The lower 16 bits of an address put together from its two parts. -/
theorem getLsbD_append_low (h : Byte) (l : Half) {k : Nat} (hk : k < 16) : (h ++ l).getLsbD k = l.getLsbD k := by
  rw [BitVec.getLsbD_append, if_pos hk]

/-- The upper 8 bits of an address put together from its two parts. -/
theorem getLsbD_append_high (h : Byte) (l : Half) (k : Nat) : (h ++ l).getLsbD (16 + k) = h.getLsbD k := by
  rw [BitVec.getLsbD_append, if_neg (by omega), Nat.add_sub_cancel_left]

theorem getLsbD_withMarHigh_low (a : Addr) (d m : Byte) {k : Nat} (hk : k < 16) :
    (withMarHigh a d m).getLsbD k = a.getLsbD k := by
  rw [withMarHigh, getLsbD_append_low _ _ hk, getLsbD_marLow a hk]

theorem getLsbD_withMarHigh_high (a : Addr) (d m : Byte) {k : Nat} (hk : k < 8) :
    (withMarHigh a d m).getLsbD (16 + k) = if m.getLsbD k then d.getLsbD k else a.getLsbD (16 + k) := by
  rw [withMarHigh, getLsbD_append_high, getLsbD_merge, getLsbD_marHigh a hk]

theorem getLsbD_withMarLow_low (a : Addr) (d m : Half) {k : Nat} (hk : k < 16) :
    (withMarLow a d m).getLsbD k = if m.getLsbD k then d.getLsbD k else a.getLsbD k := by
  rw [withMarLow, getLsbD_append_low _ _ hk, getLsbD_merge, getLsbD_marLow a hk]

theorem getLsbD_withMarLow_high (a : Addr) (d m : Half) {k : Nat} (hk : k < 8) :
    (withMarLow a d m).getLsbD (16 + k) = a.getLsbD (16 + k) := by
  rw [withMarLow, getLsbD_append_high, getLsbD_marHigh a hk]

/-- The response of a read of the high part: the shift brings in no bit above the register's 24. -/
theorem zext16_marHigh (a : Addr) : zext16 (marHigh a) = (a >>> 16).setWidth 16 := by
  apply BitVec.eq_of_toNat_eq
  have ha := a.isLt
  simp only [zext16, marHigh, BitVec.toNat_setWidth, BitVec.extractLsb'_toNat, BitVec.toNat_ushiftRight,
    Nat.shiftRight_eq_div_pow]
  omega

theorem marLow_eq_setWidth (a : Addr) : marLow a = a.setWidth 16 :=
  (BitVec.setWidth_eq_extractLsb' (by decide)).symm

/-! ### The 8-bit view of the I/O address registers -/

/-- The response of a read through the 8-bit view, as a mask of the whole register. -/
theorem zext16_ioarLow (h : Half) : zext16 (ioarLow h) = h &&& 0x00FF#16 := by
  apply BitVec.eq_of_toNat_eq
  have hmask : h.toNat &&& 0xFF = h.toNat % 2 ^ 8 := Nat.and_two_pow_sub_one_eq_mod h.toNat 8
  simp only [zext16, ioarLow, BitVec.toNat_setWidth, BitVec.extractLsb'_toNat, BitVec.toNat_and, BitVec.toNat_ofNat,
    Nat.shiftRight_zero, Nat.reducePow, Nat.reduceMod, hmask]
  omega

theorem ioarFromAlias_eq_or (d : Byte) : ioarFromAlias d = 0xFF00#16 ||| d.setWidth 16 := by
  rw [ioarFromAlias, BitVec.append_def, BitVec.setWidth'_eq]
  rfl

/-! ### The frame of a register write

The answer to a transaction reaches no submodule, and a register put back leaves nothing of its write. -/

@[simp] theorem chan_answered (r : Response) (s : State) (c : Chan) : (answered r s).chan c = s.chan c :=
  State.chan_outcome s c (.ok r)

@[simp] theorem sub_answered (r : Response) (s : State) (c : Chan) (u : Sub) : (answered r s).sub c u = s.sub c u := by
  simp [State.sub]

@[simp] theorem mar_answered (r : Response) (s : State) (c : Chan) (u : Sub) : (answered r s).mar c u = s.mar c u := by
  simp [State.mar]

@[simp] theorem etcr_answered (r : Response) (s : State) (c : Chan) (u : Sub) :
    (answered r s).etcr c u = s.etcr c u := by
  simp [State.etcr]

@[simp] theorem dmacr_answered (r : Response) (s : State) (c : Chan) : (answered r s).dmacr c = s.dmacr c := by
  simp [State.dmacr]

theorem setChan_answered (r : Response) (s : State) (c : Chan) (ch : Channel) :
    (answered r s).setChan c ch = answered r (s.setChan c ch) := rfl

theorem setSub_answered (r : Response) (s : State) (c : Chan) (u : Sub) (m : Submodule) :
    (answered r s).setSub c u m = answered r (s.setSub c u m) := by
  simp [State.setSub, setChan_answered]

@[simp] theorem State.setSub_setSub (s : State) (c : Chan) (u : Sub) (m m' : Submodule) :
    (s.setSub c u m).setSub c u m' = s.setSub c u m' := by
  simp [State.setSub]

@[simp] theorem State.setSub_sub_self (s : State) (c : Chan) (u : Sub) : s.setSub c u (s.sub c u) = s := by
  simp [State.setSub, State.sub]

theorem setMar_putBack (r : Response) (s : State) (c : Chan) (u : Sub) (a : Addr) :
    (answered r (s.setMar c u a)).setMar c u (s.mar c u) = answered r s := by
  simp only [State.setMar, setSub_answered, sub_answered, State.sub_setSub_same, State.setSub_setSub]
  exact congrArg (answered r) (State.setSub_sub_self s c u)

theorem setEtcr_putBack (r : Response) (s : State) (c : Chan) (u : Sub) (h : Half) :
    (answered r (s.setEtcr c u h)).setEtcr c u (s.etcr c u) = answered r s := by
  simp only [State.setEtcr, setSub_answered, sub_answered, State.sub_setSub_same, State.setSub_setSub]
  exact congrArg (answered r) (State.setSub_sub_self s c u)

theorem setDmacr_putBack (r : Response) (s : State) (c : Chan) (h : Half) :
    (answered r (s.setDmacr c h)).setDmacr c (s.dmacr c) = answered r s := by
  simp only [State.setDmacr, setChan_answered, chan_answered, State.chan_setChan_same, State.setChan_setChan]
  exact congrArg (answered r) (State.setChan_chan_self s c)

/-! ### Register writes under the mask -/

/-- WR.MARAH and WR.MARBH, the one transaction on either submodule (R121, R125). -/
theorem exec_marHighWrite {c : Chan} {u : Sub} {i : Instr} {d m : Byte} (s : State) (h : s.halted = false)
    (hi : (u = .subA ∧ i = .wrMarah c d m) ∨ (u = .subB ∧ i = .wrMarbh c d m)) :
    exec i s = .next (answered .none (s.setMar c u (withMarHigh (s.mar c u) d m))) := by
  obtain ⟨rfl, rfl⟩ | ⟨rfl, rfl⟩ := hi <;> exact complete_answered s _ .none h

/-- WR.MARAL and WR.MARBL, the one transaction on either submodule (R123, R127). -/
theorem exec_marLowWrite {c : Chan} {u : Sub} {i : Instr} {d m : Half} (s : State) (h : s.halted = false)
    (hi : (u = .subA ∧ i = .wrMaral c d m) ∨ (u = .subB ∧ i = .wrMarbl c d m)) :
    exec i s = .next (answered .none (s.setMar c u (withMarLow (s.mar c u) d m))) := by
  obtain ⟨rfl, rfl⟩ | ⟨rfl, rfl⟩ := hi <;> exact complete_answered s _ .none h

/-- WR.ETCRA and WR.ETCRB, the one transaction on either submodule (R133, R135). -/
theorem exec_etcrWrite {c : Chan} {u : Sub} {i : Instr} {d m : Half} (s : State) (h : s.halted = false)
    (hi : (u = .subA ∧ i = .wrEtcra c d m) ∨ (u = .subB ∧ i = .wrEtcrb c d m)) :
    exec i s = .next (answered .none (s.setEtcr c u (merge (s.etcr c u) d m))) := by
  obtain ⟨rfl, rfl⟩ | ⟨rfl, rfl⟩ := hi <;> exact complete_answered s _ .none h

theorem exec_wrDmacr (c : Chan) (d m : Half) (s : State) (h : s.halted = false) :
    exec (.wrDmacr c d m) s = .next (answered .none (s.setDmacr c (merge (s.dmacr c) d m))) :=
  complete_answered s _ .none h

/-- Settles O16: the write keeps the low part beside the merged high part, and the address put back leaves
only the outcome. -/
theorem addressHighWrites : Obligations.AddressHighWrites := by
  intro c u i d m s h hi
  refine ⟨encodes_channelByteWrite (.wrMarah c) (by decide) fun _ _ => rfl,
    encodes_channelByteWrite (.wrMarbh c) (by decide) fun _ _ => rfl, _, exec_marHighWrite s h hi,
    fun k hk => ?_, fun k hk => ?_, setMar_putBack .none s c u _⟩
  · rw [mar_answered, State.mar_setMar_same, getLsbD_withMarHigh_low _ d m hk]
  · rw [mar_answered, State.mar_setMar_same, getLsbD_withMarHigh_high _ d m hk]

/-- Settles O17: the write keeps the high part beside the merged low part, and the address put back leaves
only the outcome. -/
theorem addressLowWrites : Obligations.AddressLowWrites := by
  intro c u i d m s h hi
  refine ⟨encodes_channelWrite (by decide) fun _ _ => rfl, encodes_channelWrite (by decide) fun _ _ => rfl,
    _, exec_marLowWrite s h hi, fun k hk => ?_, fun k hk => ?_, setMar_putBack .none s c u _⟩
  · rw [mar_answered, State.mar_setMar_same, getLsbD_withMarLow_low _ d m hk]
  · rw [mar_answered, State.mar_setMar_same, getLsbD_withMarLow_high _ d m hk]

/-- Settles O20: the write merges the count register, and the register put back leaves only the outcome. -/
theorem countWrites : Obligations.CountWrites := by
  intro c u i d m s h hi
  refine ⟨encodes_channelWrite (by decide) fun _ _ => rfl, encodes_channelWrite (by decide) fun _ _ => rfl,
    _, exec_etcrWrite s h hi, fun k _ => ?_, setEtcr_putBack .none s c u _⟩
  rw [etcr_answered, State.etcr_setEtcr_same, getLsbD_merge]

/-- Settles O21: the write merges the control word and does nothing else, so no start and no event is left
when the word is put back. -/
theorem controlWrites : Obligations.ControlWrites := by
  intro c d m s h
  refine ⟨encodes_channelWrite (by decide) fun _ _ => rfl, _, exec_wrDmacr c d m s h, fun k _ => ?_,
    setDmacr_putBack .none s c _⟩
  rw [dmacr_answered, State.dmacr_setDmacr_same, getLsbD_merge]

/-! ### Register reads

Every read is `complete` of the state itself; what is left is its response, read off the register. -/

/-- Settles O12: the four reads answer the two views of the address register, the high one zero-extended. -/
theorem addressRegisterReads : Obligations.AddressRegisterReads := by
  intro c s h
  rw [← zext16_marHigh, ← zext16_marHigh, ← marLow_eq_setWidth, ← marLow_eq_setWidth]
  exact ⟨encodes_channelRead (by decide) rfl, encodes_channelRead (by decide) rfl,
    encodes_channelRead (by decide) rfl, encodes_channelRead (by decide) rfl,
    complete_answered s s (.word (zext16 (marHigh (s.mar c .subA)))) h,
    complete_answered s s (.word (marLow (s.mar c .subA))) h,
    complete_answered s s (.word (zext16 (marHigh (s.mar c .subB)))) h,
    complete_answered s s (.word (marLow (s.mar c .subB))) h⟩

/-- Settles O13: the four reads answer the whole I/O address register or its zero-extended 8-bit view. -/
theorem ioAddressReads : Obligations.IoAddressReads := by
  intro c s h
  simp only [← zext16_ioarLow]
  exact ⟨encodes_channelRead (by decide) rfl, encodes_channelRead (by decide) rfl,
    encodes_channelRead (by decide) rfl, encodes_channelRead (by decide) rfl,
    complete_answered s s (.word (s.ioar c .subA)) h,
    complete_answered s s (.word (s.ioar c .subB)) h,
    complete_answered s s (.word (zext16 (ioarLow (s.ioar c .subA)))) h,
    complete_answered s s (.word (zext16 (ioarLow (s.ioar c .subB)))) h⟩

/-- Settles O14: the five reads answer the register itself, the 8-bit legacy registers zero-extended. -/
theorem countAndControlReads : Obligations.CountAndControlReads := by
  intro c s h
  simp only [← zext16_eq_append]
  exact ⟨encodes_channelRead (by decide) rfl, encodes_channelRead (by decide) rfl,
    encodes_channelRead (by decide) rfl, encodes_channelRead (by decide) rfl, encodes_channelRead (by decide) rfl,
    complete_answered s s (.word (s.etcr c .subA)) h,
    complete_answered s s (.word (s.etcr c .subB)) h,
    complete_answered s s (.word (s.dmacr c)) h,
    complete_answered s s (.word (zext16 (s.dtcr c .subA))) h,
    complete_answered s s (.word (zext16 (s.dtcr c .subB))) h⟩

/-! ### Register writes at full width only -/

/-- Settles O18: `0xFFFF` is the one mask that passes the test of R54, and the register then holds the data. -/
theorem ioAddressWrites : Obligations.IoAddressWrites := fun c d _ s h =>
  ⟨encodes_channelWrite (by decide) fun _ _ => rfl, encodes_channelWrite (by decide) fun _ _ => rfl,
    withFullMask_full s (finish (.ret .none (s.setIoar c .subA d))) h,
    withFullMask_full s (finish (.ret .none (s.setIoar c .subB d))) h,
    fun hm => ⟨withFullMask_partial s (finish (.ret .none (s.setIoar c .subA d))) h hm,
      withFullMask_partial s (finish (.ret .none (s.setIoar c .subB d))) h hm⟩⟩

/-- Settles O19: as O18 at mask `0xFF`, the byte being stored under a high byte of `0xFF` (R91). -/
theorem ioAliasWrites : Obligations.IoAliasWrites := by
  intro c d m s h
  rw [← ioarFromAlias_eq_or]
  exact ⟨encodes_channelByteWrite (.wrIoara8 c) (by decide) fun _ _ => rfl,
    encodes_channelByteWrite (.wrIoarb8 c) (by decide) fun _ _ => rfl,
    withFullMask_full s (finish (.ret .none (s.setIoar c .subA (ioarFromAlias d)))) h,
    withFullMask_full s (finish (.ret .none (s.setIoar c .subB (ioarFromAlias d)))) h,
    fun hm => ⟨withFullMask_partial s (finish (.ret .none (s.setIoar c .subA (ioarFromAlias d)))) h hm,
      withFullMask_partial s (finish (.ret .none (s.setIoar c .subB (ioarFromAlias d)))) h hm⟩⟩

end Sys2Proof.Machine
end

section
/-! The translation of the legacy pair (42_legacy_translation.md): the layout all its control words share,
and the request codes of R155 to R157 as the tables of the statement. -/

namespace Sys2Proof.Machine

open Sys2Proof.Claims

/-! ### The layout of a translated control word -/

/-- A control word by the fields the translation fills (R151): side A, direction, bits 11:8, side B and
request source, bit 4 being 0 in every mode. -/
def legacyWord (sideA : BitVec 3) (dir : Bool) (high : BitVec 4) (sideB : BitVec 3) (source : BitVec 4) : Half :=
  sideA ++ BitVec.ofBool dir ++ high ++ sideB ++ 0#1 ++ source

section
variable {sideA : BitVec 3} {dir : Bool} {high : BitVec 4} {sideB : BitVec 3} {source : BitVec 4}

/-- A field from bit 8 up lies above side B, bit 4 and the source. -/
theorem extractLsb'_legacyWord_upper (k n : Nat) :
    (legacyWord sideA dir high sideB source).extractLsb' (8 + k) n =
      (sideA ++ BitVec.ofBool dir ++ high).extractLsb' k n := by
  rw [legacyWord, BitVec.extractLsb'_append_eq_of_le (by omega), BitVec.extractLsb'_append_eq_of_le (by omega),
    BitVec.extractLsb'_append_eq_of_le (by omega)]
  congr 1
  omega

theorem getLsbD_legacyWord_upper (k : Nat) :
    (legacyWord sideA dir high sideB source).getLsbD (8 + k) =
      (sideA ++ BitVec.ofBool dir ++ high).getLsbD k := by
  rw [BitVec.getLsbD_eq_extractLsb', extractLsb'_legacyWord_upper, ← BitVec.getLsbD_eq_extractLsb']

theorem legacyWord_sideA : (legacyWord sideA dir high sideB source).extractLsb' 13 3 = sideA := by
  rw [extractLsb'_legacyWord_upper 5 3, BitVec.extractLsb'_append_eq_of_le (by decide)]
  exact BitVec.extractLsb'_append_eq_left

theorem legacyWord_dir : (legacyWord sideA dir high sideB source).getLsbD 12 = dir := by
  rw [getLsbD_legacyWord_upper 4, BitVec.getLsbD_append, if_neg (by decide), BitVec.getLsbD_append, if_pos (by decide),
    BitVec.getLsbD_ofBool]
  rfl

theorem legacyWord_high : (legacyWord sideA dir high sideB source).extractLsb' 8 4 = high := by
  rw [extractLsb'_legacyWord_upper 0 4]
  exact BitVec.extractLsb'_append_eq_right

theorem legacyWord_bit11 : (legacyWord sideA dir high sideB source).getLsbD 11 = high.getLsbD 3 := by
  rw [getLsbD_legacyWord_upper 3, BitVec.getLsbD_append, if_pos (by decide)]

theorem legacyWord_bits10_8 :
    (legacyWord sideA dir high sideB source).extractLsb' 8 3 = high.extractLsb' 0 3 := by
  rw [extractLsb'_legacyWord_upper 0 3, BitVec.extractLsb'_append_eq_of_add_le (by decide)]

theorem legacyWord_sideB : (legacyWord sideA dir high sideB source).extractLsb' 5 3 = sideB := by
  rw [legacyWord, BitVec.extractLsb'_append_eq_of_le (by decide), BitVec.extractLsb'_append_eq_of_le (by decide)]
  exact BitVec.extractLsb'_append_eq_right

theorem legacyWord_bit4 : (legacyWord sideA dir high sideB source).getLsbD 4 = false := by
  rw [legacyWord, BitVec.getLsbD_append, if_neg (by decide), BitVec.getLsbD_append, if_pos (by decide)]
  rfl

theorem legacyWord_source : (legacyWord sideA dir high sideB source).extractLsb' 0 4 = source :=
  BitVec.extractLsb'_append_eq_right

end

/-! ### The request codes -/

/-- The 3-bit request-source field of a legacy register, as the index of a table. -/
theorem toNat_sourceField (x : Byte) : (x.extractLsb' 0 3).toNat = x.toNat % 8 := by
  rw [BitVec.extractLsb'_toNat, Nat.shiftRight_zero]

theorem shortCode_toNat (f : BitVec 3) : (shortCode f).toNat = shortTable.getD f.toNat 0 := by
  revert f
  decide

theorem fullNormalCode_toNat (f : BitVec 3) : (fullNormalCode f).toNat = fullTable.getD f.toNat 0 := by
  revert f
  decide

theorem fullBlockCode_toNat (f : BitVec 3) : (fullBlockCode f).toNat = blockTable.getD f.toNat 0 := by
  revert f
  decide

/-! ### The three modes -/

theorem legacyDmacr_short {a : Byte} (b : Byte) (hfull : legacyFull a = false) :
    legacyDmacr a b = legacyWord (a.extractLsb' 4 3) false (shortCode (a.extractLsb' 0 3)) (b.extractLsb' 4 3)
      (shortCode (b.extractLsb' 0 3)) := by
  simp only [legacyDmacr, hfull, Bool.false_eq_true, if_false]
  rfl

theorem legacyDmacr_normal {a : Byte} (b : Byte) (hfull : legacyFull a = true) (hblock : a.getLsbD 0 = false) :
    legacyDmacr a b = legacyWord (a.extractLsb' 4 3) false 0b0000#4 (b.extractLsb' 4 3)
      (fullNormalCode (b.extractLsb' 0 3)) := by
  have hupper : a.extractLsb' 4 3 ++ BitVec.ofBool false ++ 0b0000#4 = a.extractLsb' 4 3 ++ 0#5 :=
    BitVec.append_assoc
  simp only [legacyDmacr, hfull, hblock, Bool.false_eq_true, if_false, if_true, legacyWord, hupper]

theorem legacyDmacr_block {a : Byte} (b : Byte) (hfull : legacyFull a = true) (hblock : a.getLsbD 0 = true) :
    legacyDmacr a b = legacyWord (a.extractLsb' 4 3) (b.getLsbD 3) 0b1000#4 (b.extractLsb' 4 3)
      (fullBlockCode (b.extractLsb' 0 3)) := by
  have hupper : a.extractLsb' 4 3 ++ BitVec.ofBool (b.getLsbD 3) ++ 1#1 ++ 0#3 =
      a.extractLsb' 4 3 ++ BitVec.ofBool (b.getLsbD 3) ++ 0b1000#4 := BitVec.append_assoc
  simp only [legacyDmacr, hfull, hblock, if_true, legacyWord, hupper]

/-- Settles O38: in each of the three modes the control word is a `legacyWord`, so every clause reads one
of its fields, and the source is the mode's code. -/
theorem legacyControlWord : Obligations.LegacyControlWord := by
  intro a b
  cases hfull : legacyFull a
  case false =>
    rw [legacyDmacr_short b hfull]
    refine ⟨legacyWord_sideA, legacyWord_sideB, legacyWord_bit4, fun _ => ⟨legacyWord_dir, ?_, ?_⟩, nofun⟩
    · rw [legacyWord_high, shortCode_toNat, toNat_sourceField]
    · rw [legacyWord_source, shortCode_toNat, toNat_sourceField]
  case true =>
    cases hblock : a.getLsbD 0
    case false =>
      rw [legacyDmacr_normal b hfull hblock]
      refine ⟨legacyWord_sideA, legacyWord_sideB, legacyWord_bit4, nofun,
        fun _ => ⟨legacyWord_bit11, legacyWord_dir, legacyWord_bits10_8, ?_⟩⟩
      rw [legacyWord_source, fullNormalCode_toNat, toNat_sourceField]
      rfl
    case true =>
      rw [legacyDmacr_block b hfull hblock]
      refine ⟨legacyWord_sideA, legacyWord_sideB, legacyWord_bit4, nofun,
        fun _ => ⟨legacyWord_bit11, legacyWord_dir, legacyWord_bits10_8, ?_⟩⟩
      rw [legacyWord_source, fullBlockCode_toNat, toNat_sourceField]
      rfl

end Sys2Proof.Machine
end

section
/-! The TransferState of a start (43_start_protocol.md R175 to R181): the numbers that its counts, steps
and I/O-side address stand for, and what the hand-over adds to it. -/

namespace Sys2Proof.Machine

open Sys2Proof.Claims

/-! ### Counts, steps and the I/O-side address as numbers -/

/-- R182 at 16 bits. -/
theorem toNat_count16 (e : Half) : (count16 e).toNat = unitCount e := by
  have he := e.isLt
  unfold count16 unitCount
  split
  case isTrue hzero => subst hzero; rfl
  case isFalse hzero =>
    have hne : e.toNat ≠ 0 := fun h => hzero (BitVec.eq_of_toNat_eq h)
    rw [if_neg hne, BitVec.toNat_setWidth_of_le (by decide)]

/-- R182 at 8 bits: the high byte of the count register is not read (R179). -/
theorem toNat_count8 (e : Half) :
    (count8 e).toNat = if e.toNat % 0x100 = 0 then 0x100 else e.toNat % 0x100 := by
  have hlow : (e.extractLsb' 0 8).toNat = e.toNat % 0x100 := by
    rw [BitVec.extractLsb'_toNat, Nat.shiftRight_zero]
  rw [← hlow]
  unfold count8
  split
  case isTrue hzero => rw [hzero]; rfl
  case isFalse hzero =>
    have hne : (e.extractLsb' 0 8).toNat ≠ 0 := fun h => hzero (BitVec.eq_of_toNat_eq h)
    rw [if_neg hne, BitVec.toNat_setWidth_of_le (by decide)]

theorem toInt_movingStep (wide down : Bool) : (movingStep wide down).toInt = signedStep wide down := by
  cases wide <;> cases down <;> rfl

/-- A side's step, zero unless the side moves (R175). -/
theorem toInt_ite_movingStep (moves wide down : Bool) :
    (if moves then movingStep wide down else .zero).toInt = if moves then signedStep wide down else 0 := by
  rw [apply_ite AddrStep.toInt, toInt_movingStep]
  rfl

theorem ioAddr_eq_append (ioar : Half) : ioAddr ioar = 0xFF#8 ++ ioar := by
  rw [ioAddr, BitVec.append_def, BitVec.setWidth'_eq]
  rfl

/-- R61: the bank and the register share no bit, so their union is their sum. -/
theorem toNat_ioAddr (ioar : Half) : (ioAddr ioar).toNat = 0xFF0000 + ioar.toNat := by
  rw [ioAddr_eq_append, BitVec.toNat_append, ← Nat.shiftLeft_add_eq_or_of_lt ioar.isLt]
  rfl

/-! ### Fields of the control word -/

theorem autoFull_eq_bits (dmacr : Half) : autoFull dmacr = (dmacr.getLsbD 2 && dmacr.getLsbD 1) := by
  have hfield : ∀ f : BitVec 2, (f == 0b11#2) = (f.getLsbD 1 && f.getLsbD 0) := by decide
  rw [autoFull, hfield, BitVec.getLsbD_extractLsb', BitVec.getLsbD_extractLsb']
  rfl

theorem slice_subA_eq_shift (dmacr : Half) : slice dmacr .subA = (dmacr >>> 8).setWidth 8 :=
  BitVec.setWidth_ushiftRight_eq_extractLsb.symm

theorem slice_subB_eq_setWidth (dmacr : Half) : slice dmacr .subB = dmacr.setWidth 8 := lowLane_eq_setWidth dmacr

/-! ### The three submodes of short-address mode -/

/-- The memory side stands still in idle mode alone (R176 to R179). -/
theorem toInt_memStep (ch : Channel) (u : Sub) :
    (memStep ch u).toInt =
      if (slice ch.dmacr u).getLsbD 5 && flagBit ch.dta u then 0
      else signedStep ((slice ch.dmacr u).getLsbD 7) ((slice ch.dmacr u).getLsbD 6) := by
  rw [memStep, apply_ite AddrStep.toInt, toInt_movingStep]
  rfl

/-- Repeat mode alone counts by the low byte (R176 to R179). -/
theorem toNat_shortCount (ch : Channel) (u : Sub) (etcr : Half) :
    (shortCount ch u etcr).toNat =
      if (slice ch.dmacr u).getLsbD 5 && !flagBit ch.dta u then
        (if etcr.toNat % 0x100 = 0 then 0x100 else etcr.toNat % 0x100)
      else unitCount etcr := by
  rw [shortCount, apply_ite BitVec.toNat, toNat_count8, toNat_count16]
  rfl

/-! ### The hand-over of a TransferState just written -/

theorem State.setSub_hazard_out (s : State) (c : Chan) (u : Sub) (m : Submodule) (b : Bool) (l : List Event) :
    ({ s with hazard := b, out := l } : State).setSub c u m = { s.setSub c u m with hazard := b, out := l } := by
  rw [State.setSub, State.chan_hazard_out, State.setChan_hazard_out]
  rfl

theorem setInflight_setTs (c : Chan) (u : Sub) (p : TransferState) (b : Bool) (s : State) :
    (s.setTs c u p).setInflight c u b = s.setSub c u { s.sub c u with ts := p, inflight := b } := by
  simp [State.setTs, State.setInflight]

section
variable (c : Chan) (u : Sub) (p : TransferState) (s : State)

theorem sub_handoff_setTs :
    (handoff c u (s.setTs c u p)).sub c u = { s.sub c u with ts := p, inflight := true } := by
  rw [handoff_setTs, State.sub, State.chan_hazard_out]
  exact State.sub_setSub_same s c u _

theorem ts_handoff_setTs : (handoff c u (s.setTs c u p)).ts c u = p := by
  rw [State.ts, sub_handoff_setTs]

theorem inflight_handoff_setTs : (handoff c u (s.setTs c u p)).inflight c u = true := by
  rw [State.inflight, sub_handoff_setTs]

theorem hazard_handoff_setTs : (handoff c u (s.setTs c u p)).hazard = (s.hazard || s.inflight c u) := by
  rw [handoff_setTs]

theorem out_handoff_setTs : (handoff c u (s.setTs c u p)).out = s.out ++ [.handoff (packedId c u)] := by
  rw [handoff_setTs]

/-- The hand-over writes four elements (R181): with these put back, nothing is left of it. -/
theorem handoff_setTs_putBack :
    { ((handoff c u (s.setTs c u p)).setTs c u (s.ts c u)).setInflight c u (s.inflight c u) with
      hazard := s.hazard, out := s.out } = s := by
  have hback : s.setSub c u { s.sub c u with ts := s.ts c u, inflight := s.inflight c u } = s :=
    State.setSub_sub_self s c u
  rw [setInflight_setTs, sub_handoff_setTs, handoff_setTs, State.setSub_hazard_out, State.setSub_setSub, hback]

end

/-! ### The two addressing modes -/

/-- Settles O26: the block bit decides between the fatal and the hand-over of `fullTransfer`, whose fields
are the channel's registers read as numbers. -/
theorem fullAddressStartParameters : Obligations.FullAddressStartParameters := by
  intro c s hfull
  refine ⟨start_full_block c .subA s hfull, fun hblock => ⟨_, start_full c .subA s hfull hblock, ?_⟩⟩
  rw [ts_handoff_setTs]
  exact ⟨rfl, rfl, toNat_count16 _, rfl, toInt_ite_movingStep _ _ _, toInt_ite_movingStep _ _ _, autoFull_eq_bits _,
    rfl, rfl, inflight_handoff_setTs c .subA _ s, hazard_handoff_setTs c .subA _ s, out_handoff_setTs c .subA _ s,
    handoff_setTs_putBack c .subA _ s⟩

/-- Settles O27: the start is the hand-over of `shortTransfer`, whose submode is in the step and the count
alone, and whose direction bit says which side has the memory's address and step. -/
theorem shortAddressStartParameters : Obligations.ShortAddressStartParameters := by
  intro c u s hshort
  refine ⟨_, slice (s.dmacr c) u, ioAddr (s.ioar c u), (memStep (s.chan c) u).toInt, start_short c u s hshort,
    ?slice, toNat_ioAddr _, toInt_memStep _ u, ?_⟩
  case slice =>
    cases u
    case subA => exact slice_subA_eq_shift _
    case subB => exact slice_subB_eq_setWidth _
  rw [ts_handoff_setTs]
  exact ⟨toNat_shortCount _ u _, rfl, rfl, apply_ite AddrStep.toInt _ _ _, apply_ite AddrStep.toInt _ _ _, rfl, rfl,
    rfl, rfl, inflight_handoff_setTs c u _ s, hazard_handoff_setTs c u _ s, out_handoff_setTs c u _ s,
    handoff_setTs_putBack c u _ s⟩

end Sys2Proof.Machine
end

section
/-! Short-address completion (44_completion.md R191, R193 to R195): the prologue that every DONE runs, what
a completion leaves of its channel, then the one-shot's cleared enables and the repeat mode's reload. -/

namespace Sys2Proof

theorem Sub.eq_or_eq_other (u v : Sub) : v = u ∨ v = u.other := by
  cases u <;> cases v <;> decide

@[simp] theorem Sub.other_ne_self (u : Sub) : u.other ≠ u := by
  cases u <;> decide

end Sys2Proof

namespace Sys2Proof.Machine

open Sys2Proof.Claims

@[simp] theorem Channel.sub_setSub_other (ch : Channel) (u : Sub) (m : Submodule) :
    (ch.setSub u m).sub u.other = ch.sub u.other := by
  cases u <;> rfl

/-! ### The prologue of `transfer_done` -/

/-- The prologue of `transfer_done` (R191): the end signal, then the in-flight bit. -/
def endTransfer (c : Chan) (u : Sub) (s : State) : State := (driveEnd c u false s).setInflight c u false

section
variable (c : Chan) (u : Sub) (s : State)

theorem chan_endTransfer :
    (endTransfer c u s).chan c =
      ({ s.chan c with tend := (s.ts c u).autoreq && (s.chan c).tend } : Channel).setSub u
        { s.sub c u with inflight := false } :=
  prologue_chan c u s

theorem sub_endTransfer : (endTransfer c u s).sub c u = { s.sub c u with inflight := false } := by
  rw [State.sub, chan_endTransfer, Channel.sub_setSub_same]

theorem chan_other_endTransfer : (endTransfer c u s).chan c.other = s.chan c.other := prologue_chan_other c u s

theorem out_endTransfer : (endTransfer c u s).out = s.out ++ endEvents c u s := prologue_out c u s

theorem sameController_endTransfer : sameController s (endTransfer c u s) := ⟨⟨rfl, rfl, rfl, rfl, rfl⟩, rfl⟩

end

/-- The state that a repeat-mode completion leaves (R193): `shortTransfer` of the current registers, handed over
again. -/
def reloaded (c : Chan) (u : Sub) (s : State) : State :=
  handoff c u ((endTransfer c u s).setTs c u (shortTransfer (s.chan c) u (s.sub c u)))

/-! ### DONE on a short-address channel -/

section
variable {c : Chan} {u : Sub} {s : State}

theorem exec_done (id : Half) (s : State) :
    exec (.done id) s =
      withId s id fun i => finish ((transferDone (idChan i) (idSub i) s).bind fun _ t => .ret .none t) := rfl

theorem exec_done_of_ret {t : State} (h : s.halted = false) (hret : transferDone c u s = .ret () t) :
    exec (.done (idOperand c u)) s = .next (answered .none t) := by
  rw [exec_done, withId_inRange s _ h (idOperand_toNat_lt c u), idField_idOperand, idChan_packedId, idSub_packedId,
    hret, Proc.bind_ret, finish_answered]

theorem transferDone_oneShot (hshort : (s.chan c).fae = false) (hrepeat : isRepeat (s.chan c) u = false) :
    transferDone c u s = .ret () (retire c u u (endTransfer c u s)) := by
  simp [transferDone_cases, hshort, hrepeat, endTransfer]

/-- The reload derives from the registers before the prologue: `shortTransfer` reads no in-flight bit and no
end line. -/
theorem transferDone_repeat (hshort : (s.chan c).fae = false) (hrepeat : isRepeat (s.chan c) u = true) :
    transferDone c u s = .ret () (reloaded c u s) := by
  have hregs : shortTransfer ((endTransfer c u s).chan c) u ((endTransfer c u s).sub c u) =
      shortTransfer (s.chan c) u (s.sub c u) := by
    rw [chan_endTransfer, sub_endTransfer]
    rfl
  rw [transferDone_cases, hshort, hrepeat, reloaded, ← hregs]
  rfl

end

/-! ### The channel after a completion -/

theorem chan_retire_endTransfer (c : Chan) (u : Sub) (s : State) :
    (retire c u u (endTransfer c u s)).chan c =
      ({ s.chan c with
        dte := clearBit (s.dte c) u.toNat, tend := (s.ts c u).autoreq && (s.chan c).tend } : Channel).setSub u
        { s.sub c u with dtcr := clearBit (s.dtcr c u) 7, inflight := false } := by
  rw [retire_chan, State.dte, State.dtcr, sub_endTransfer, chan_endTransfer]
  cases u <;> rfl

theorem chan_reloaded (c : Chan) (u : Sub) (s : State) :
    (reloaded c u s).chan c =
      ({ s.chan c with tend := (s.ts c u).autoreq && (s.chan c).tend } : Channel).setSub u
        { s.sub c u with ts := shortTransfer (s.chan c) u (s.sub c u), inflight := true } := by
  rw [reloaded, handoff_setTs, State.chan_hazard_out, State.setSub, State.chan_setChan_same, sub_endTransfer,
    chan_endTransfer, Channel.setSub_setSub]

section
/-! A completion of submodule `u` replaces at most the enables, the end line and submodule `u` itself: `hchan`
is the shape both completions leave. -/

variable {c : Chan} {u : Sub} {s t : State} {d : BitVec 2} {b : Bool} {m : Submodule}
variable (hchan : t.chan c = ({ s.chan c with dte := d, tend := b } : Channel).setSub u m)
include hchan

theorem dte_of_completed : t.dte c = d := by rw [State.dte, hchan]; rfl

theorem tend_of_completed : (t.chan c).tend = b := by rw [hchan]; rfl

theorem sub_of_completed : t.sub c u = m := by rw [State.sub, hchan, Channel.sub_setSub_same]

theorem sub_other_of_completed : t.sub c u.other = s.sub c u.other := by
  rw [State.sub, hchan, Channel.sub_setSub_other]
  cases u <;> rfl

/-- Any register the completed submodule keeps, both submodules keep. -/
theorem forall_sub_of_completed {α : Type} (f : Submodule → α) (hkept : f m = f (s.sub c u)) (v : Sub) :
    f (t.sub c v) = f (s.sub c v) := by
  obtain rfl | rfl := Sub.eq_or_eq_other u v
  · rw [sub_of_completed hchan, hkept]
  · rw [sub_other_of_completed hchan]

/-- R197: a submodule that keeps its address and count registers leaves all of its channel's. -/
theorem sameRegisters_of_completed (hmar : m.mar = s.mar c u) (hioar : m.ioar = s.ioar c u)
    (hetcr : m.etcr = s.etcr c u) : sameRegisters c s t := by
  have hregs : ∀ v, t.mar c v = s.mar c v ∧ t.ioar c v = s.ioar c v ∧ t.etcr c v = s.etcr c v := fun v =>
    ⟨forall_sub_of_completed hchan Submodule.mar hmar v, forall_sub_of_completed hchan Submodule.ioar hioar v,
      forall_sub_of_completed hchan Submodule.etcr hetcr v⟩
  rw [sameRegisters, hchan]
  exact ⟨rfl, rfl, rfl, rfl, rfl, hregs⟩

end

/-! ### One-shot completion -/

/-- The block-control word loses the submodule's own enable bit (R194, R106). -/
theorem getLsbD_dmabcr_retire (c : Chan) (u : Sub) (s : State) (k : Nat) :
    (retire c u u s).dmabcr.getLsbD k = (s.dmabcr.getLsbD k && decide (k ≠ 4 + 2 * c.toNat + u.toNat)) := by
  obtain ⟨-, hdmabcr, -⟩ := retire_rest c u u s
  rw [hdmabcr, getLsbD_clearBit, packedId_toNat, Nat.add_assoc]

/-- What a one-shot completion emits: the end event, then at most one interrupt (R191, R195). -/
theorem out_retire_endTransfer (c : Chan) (u : Sub) (s : State) :
    (retire c u u (endTransfer c u s)).out = s.out ++ endEvents c u s ++
      (if flagBit (s.chan c).dtie u then [.irq (Config.irqBase c + u.toNat)] else []) := by
  obtain ⟨-, -, hout, -⟩ := retire_rest c u u (endTransfer c u s)
  rw [hout, out_endTransfer, chan_endTransfer]
  rfl

theorem sameController_retire (c : Chan) (u : Sub) (s : State) : sameController s (retire c u u s) := by
  obtain ⟨-, -, -, -, hhalted, hdmawer, hprev0, hprev1, hinbox, hresets⟩ := retire_rest c u u s
  exact ⟨⟨hdmawer, hprev0, hprev1, hinbox, hresets⟩, hhalted⟩

/-- Settles O45: the completion is `retire` after the prologue, which clears the submodule's own bit in each of
the three enables and replaces nothing else of the channel but the end line and the in-flight bit. -/
theorem shortAddressOneShotCompletion : Obligations.ShortAddressOneShotCompletion := by
  intro c u s h hshort hrepeat
  have hchan := (chan_answered .none (retire c u u (endTransfer c u s)) c).trans (chan_retire_endTransfer c u s)
  have hdte := dte_of_completed hchan
  have hown := sub_of_completed hchan
  have hother := sub_other_of_completed hchan
  obtain ⟨hchanOther, -, -, hhazard, -⟩ := retire_rest c u u (endTransfer c u s)
  refine ⟨_, exec_done_of_ret h (transferDone_oneShot hshort hrepeat), rfl, ?dteOwn, ?dteOther,
    fun k _ => getLsbD_dmabcr_retire c u (endTransfer c u s) k, ?dtcrOwn, congrArg Submodule.dtcr hother,
    congrArg Submodule.inflight hown, congrArg Submodule.inflight hother, tend_of_completed hchan,
    out_retire_endTransfer c u s, forall_sub_of_completed hchan Submodule.ts rfl, hhazard,
    sameRegisters_of_completed hchan rfl rfl rfl, ?chanOther,
    sameController_retire c u (endTransfer c u s)⟩
  case dteOwn => simp [hdte, flagBit_clearBit]
  case dteOther => simp [hdte, flagBit_clearBit]
  case dtcrOwn =>
    intro k _
    rw [State.dtcr, hown]
    exact getLsbD_clearBit (s.dtcr c u) 7 k
  case chanOther => rw [chan_answered, hchanOther, chan_other_endTransfer]

/-! ### Repeat-mode completion -/

section
variable (c : Chan) (u : Sub) (s : State)

/-- The in-flight bit is cleared before the reload, so the hand-over does not raise the hazard (R181, R191). -/
theorem hazard_reloaded : (reloaded c u s).hazard = s.hazard := by
  rw [reloaded, hazard_handoff_setTs, State.inflight, sub_endTransfer, Bool.or_false]
  rfl

theorem out_reloaded : (reloaded c u s).out = s.out ++ endEvents c u s ++ [.handoff (packedId c u)] := by
  rw [reloaded, out_handoff_setTs, out_endTransfer]

theorem chan_other_reloaded : (reloaded c u s).chan c.other = s.chan c.other := by
  rw [reloaded, handoff_setTs, State.chan_hazard_out, State.setSub, State.chan_setChan_other, chan_other_endTransfer]

theorem dmabcr_reloaded : (reloaded c u s).dmabcr = s.dmabcr := by
  rw [reloaded, handoff_setTs]
  rfl

theorem sameController_reloaded : sameController s (reloaded c u s) := by
  rw [reloaded, handoff_setTs]
  exact sameController_endTransfer c u s

end

/-- Settles O46: the completion is the hand-over of `shortTransfer` after the prologue; neither touches an enable
bit of the channel, of the block-control word or of the legacy registers. -/
theorem repeatModeCompletionReloads : Obligations.RepeatModeCompletionReloads := by
  intro c u s h hshort hrepeat
  have hchan := (chan_answered .none (reloaded c u s) c).trans (chan_reloaded c u s)
  have hown := sub_of_completed hchan
  have hother := sub_other_of_completed hchan
  exact ⟨answered .none (reloaded c u s), exec_done_of_ret h (transferDone_repeat hshort hrepeat), rfl,
    congrArg Submodule.ts hown, congrArg Submodule.ts hother,
    congrArg Submodule.inflight hown, congrArg Submodule.inflight hother,
    dte_of_completed hchan, dmabcr_reloaded c u s, forall_sub_of_completed hchan Submodule.dtcr rfl,
    tend_of_completed hchan, out_reloaded c u s, hazard_reloaded c u s,
    sameRegisters_of_completed hchan rfl rfl rfl,
    (chan_answered .none (reloaded c u s) c.other).trans (chan_other_reloaded c u s), sameController_reloaded c u s⟩

end Sys2Proof.Machine
end

section
/-! Refusals and ignored transactions (60_exceptions.md R204, R205): every transaction but RESET is the gate R111,
then its operand test, then a next state. -/

namespace Sys2Proof.Machine

/-! ### DREQ by its line -/

theorem lineChan_unsupported {l : Byte} (hl : 2 ≤ l.toNat) : lineChan l = none := by
  have h0 : l ≠ 0#8 := by rintro rfl; simp at hl
  have h1 : l ≠ 1#8 := by rintro rfl; simp at hl
  rw [lineChan, if_neg h0, if_neg h1]

theorem exec_dreq_unsupported {l : Byte} (a : Bool) (s : State) (hline : lineChan l = none) :
    exec (.dreq l a) s = gated s (.next { s with outcome := .ignored }) := by
  simp only [exec, execDreq, hline]

theorem exec_dreq_supported {l : Byte} {c : Chan} (a : Bool) (s : State) (hline : lineChan l = some c) :
    exec (.dreq l a) s = gated s (finish
      ((if a then reportAsserted c s else .ret () s).bind fun _ t => .ret .none (t.setDreqPrev c a))) := by
  simp only [exec, execDreq, hline]

/-- Settles O34: an unsupported line belongs to no channel, so past the gate only the outcome is written. -/
theorem unsupportedLineIsIgnored : Obligations.UnsupportedLineIsIgnored := by
  intro l a s hl
  rw [exec_dreq_unsupported a s (lineChan_unsupported hl)]
  exact ⟨gated_running s _, gated_halted s _⟩

/-! ### The gate and the operand test, in this order -/

/-- The refusal that tells an operand test's finding (R77, R205). -/
def refusalOf : IllFormed → Refusal
  | .idOutOfRange => .idOutOfRange
  | .partialMaskOnFullWidth => .partialMaskOnFullWidth

/-- The answer of an operand test: its finding as a refusal, or else the next state `t`. -/
def operandTested (found : Option IllFormed) (t : State) : Answer :=
  match found with
  | none => .next t
  | some e => .refused (refusalOf e)

theorem operandTested_refused_iff (found : Option IllFormed) (t : State) (r : Refusal) :
    operandTested found t = .refused r ↔ ∃ e, found = some e ∧ refusalOf e = r := by
  cases found <;> simp [operandTested]

/-- A transaction that has begun to run is not refused any more: it went well or raised a fatal (R10). -/
theorem finish_eq_next (p : Proc Response) : ∃ t, finish p = .next t := by
  cases p with
  | ret r s => exact ⟨_, finish_ret r s⟩
  | fatal s => exact ⟨s, finish_fatal s⟩

theorem gated_finish_tested (s : State) (p : Proc Response) :
    ∃ t, gated s (finish p) = gated s (operandTested none t) := by
  obtain ⟨t, ht⟩ := finish_eq_next p
  exact ⟨t, congrArg (gated s) ht⟩

theorem withFullMask_finish_tested {n : Nat} (s : State) (mask : BitVec n) (p : Proc Response) :
    ∃ t, withFullMask s mask (finish p) = gated s (operandTested (checkFullMask mask) t) := by
  obtain ⟨t, ht⟩ := finish_eq_next p
  refine ⟨t, congrArg (gated s) ?_⟩
  rw [checkFullMask, ht]
  split <;> rfl

theorem withId_finish_tested (s : State) (id : Half) (p : BitVec 2 → Proc Response) :
    ∃ t, withId s id (fun i => finish (p i)) = gated s (operandTested (checkId id) t) := by
  obtain ⟨t, ht⟩ := finish_eq_next (p (idField id))
  refine ⟨t, congrArg (gated s) ?_⟩
  simp only [checkId, ht]
  split <;> rfl

theorem exec_dreq_tested (l : Byte) (a : Bool) (s : State) :
    ∃ t, exec (.dreq l a) s = gated s (operandTested none t) := by
  cases hline : lineChan l with
  | none => exact ⟨_, exec_dreq_unsupported a s hline⟩
  | some c =>
    rw [exec_dreq_supported a s hline]
    exact gated_finish_tested s _

/-- All that a transaction but RESET can answer: what the gate says, then what `Instr.illFormed` finds, then a next
state (R111, R205). -/
theorem exec_tested {i : Instr} (s : State) (hi : i ≠ .reset) :
    ∃ t, exec i s = gated s (operandTested i.illFormed t) := by
  cases i with
  | reset => exact absurd rfl hi
  | wrDmawer _ mask | wrIoara _ _ mask | wrIoarb _ _ mask | wrDtcra _ _ mask | wrDtcrb _ _ mask | wrIoara8 _ _ mask
  | wrIoarb8 _ _ mask => exact withFullMask_finish_tested s mask _
  | clrdte id =>
    rw [exec_clrdte]
    exact withId_finish_tested s id _
  | last id =>
    rw [exec_last]
    exact withId_finish_tested s id _
  | done id =>
    rw [exec_done]
    exact withId_finish_tested s id _
  | dreq l a => exact exec_dreq_tested l a s
  | _ => exact gated_finish_tested s _

/-! ### Refusals of a transaction and of a step -/

theorem exec_refused_halted_iff {i : Instr} {s : State} (h : s.halted = true) (r : Refusal) :
    exec i s = .refused r ↔ r = .halted ∧ i ≠ .reset := by
  by_cases hi : i = .reset
  · subst hi
    simp [exec_reset]
  · obtain ⟨t, ht⟩ := exec_tested s hi
    simp [ht, gated_halted _ _ h, hi, eq_comm (a := r)]

theorem exec_refused_running_iff {i : Instr} {s : State} (h : s.halted = false) (r : Refusal) :
    exec i s = .refused r ↔ ∃ e, i.illFormed = some e ∧ refusalOf e = r := by
  by_cases hi : i = .reset
  · subst hi
    simp [exec_reset, Instr.illFormed]
  · obtain ⟨t, ht⟩ := exec_tested s hi
    rw [ht, gated_running _ _ h, operandTested_refused_iff]

theorem exec_refused_iff (i : Instr) (s : State) (r : Refusal) :
    exec i s = .refused r ↔
      (r = .halted ∧ s.halted = true ∧ i ≠ .reset) ∨
      (r = .idOutOfRange ∧ s.halted = false ∧ i.illFormed = some .idOutOfRange) ∨
      (r = .partialMaskOnFullWidth ∧ s.halted = false ∧ i.illFormed = some .partialMaskOnFullWidth) := by
  cases h : s.halted with
  | true => simp [exec_refused_halted_iff h]
  | false =>
    rw [exec_refused_running_iff h]
    constructor
    · rintro ⟨e, he, rfl⟩
      cases e <;> simp [he, refusalOf]
    · rintro (⟨-, hhalted, -⟩ | ⟨rfl, -, he⟩ | ⟨rfl, -, he⟩)
      · cases hhalted
      · exact ⟨_, he, rfl⟩
      · exact ⟨_, he, rfl⟩

section
variable {s : State} {w : TxWord} {rest : List Inbound} (hword : s.inbox = .transaction w :: rest)
include hword

theorem step_transaction {i : Instr} (hi : decode w = .instr i) : step s = exec i { s with inbox := rest } := by
  simp only [step, hword, hi]

theorem step_reservedOpcode (hw : decode w = .reservedOpcode) : step s = .refused .reservedOpcode := by
  simp only [step, hword, hw]

end

/-- Settles O8: the decoder's refusal comes first; a decoded word is refused as `exec` refuses it, and the service
of the word changes the inbox alone, so gate and operand test see the latch of `s`. -/
theorem refusalsAreExactlyTheListed : Obligations.RefusalsAreExactlyTheListed := by
  intro s w rest r hword
  cases hw : decode w with
  | reservedOpcode => simp [step_reservedOpcode hword hw, eq_comm (a := r)]
  | instr i => simp [step_transaction hword hw, exec_refused_iff]

end Sys2Proof.Machine
end

section
/-! The decoder against the encoder and against the opcode table (30_encoding.md R70 to R77): every encoded
transaction decodes to itself, and a word decodes to a transaction that has the word's own operation code. -/

namespace Sys2Proof

open Sys2Proof.Claims

/-! ### Decoding an encoded transaction -/

theorem encodes_wrDmabcr : encodes 0x40 (fun data mask => .wrDmabcr data mask) :=
  encodes_controller (by decide) (by decide) (by decide) fun _ _ => rfl

theorem encodes_trig : encodes 0x81 (fun data _ => .trig data) := encodes_event (by decide) fun _ _ => rfl

theorem encodes_done : encodes 0x85 (fun data _ => .done data) := encodes_event (by decide) fun _ _ => rfl

theorem encodes_dreq : encodes 0x82 (fun data _ => .dreq (data.setWidth 8) (data.getLsbD 8)) :=
  encodes_event (by decide) fun data _ => by rw [← lowLane_eq_setWidth]; rfl

/-- An encoded transaction decodes to what its operation code makes of its two other fields. -/
theorem decode_encode_of_encodes {i : Instr} {op : Nat} {f : Half → Half → Instr} (hf : encodes op f)
    (hop : i.opcode = BitVec.ofNat 8 op) (hi : f i.dataBits i.maskBits = i) : decode (encode i) = .instr i := by
  rw [encode, hop, hf, hi]

/-- The line and the level of DREQ are found again in the `data` field (R72). -/
theorem dreq_dataBits (l : Byte) (a : Bool) :
    (Instr.dreq l a).dataBits.setWidth 8 = l ∧ (Instr.dreq l a).dataBits.getLsbD 8 = a := by
  refine ⟨BitVec.setWidth_append_eq_right, ?_⟩
  rw [Instr.dataBits, BitVec.getLsbD_append, if_neg (by decide), BitVec.getLsbD_append, if_pos (by decide),
    BitVec.getLsbD_ofBool]
  simp

section
variable {i : Instr} {c : Chan} {r : Nat}

theorem decode_encode_channelRead (hr : r < 16) (hop : i.opcode = BitVec.ofNat 8 (readCode c r))
    (hi : decodeChannelRead c r = .instr i) : decode (encode i) = .instr i :=
  decode_encode_of_encodes (encodes_channelRead hr hi) hop rfl

/-- A channel register of 16 or 24 bits takes its two fields whole. -/
theorem decode_encode_channelWrite (hr : r < 16) (hop : i.opcode = BitVec.ofNat 8 (writeCode c r))
    (f : Half → Half → Instr) (hf : ∀ data mask, decodeChannelWrite c r data mask = .instr (f data mask))
    (hi : f i.dataBits i.maskBits = i) : decode (encode i) = .instr i :=
  decode_encode_of_encodes (encodes_channelWrite hr hf) hop hi

/-- A byte-wide channel register takes the low lanes of its two fields (R75). -/
theorem decode_encode_channelByteWrite {f : Byte → Byte → Instr} {d m : Byte} (hr : r < 16)
    (hop : (f d m).opcode = BitVec.ofNat 8 (writeCode c r)) (hd : (f d m).dataBits = d.setWidth 16)
    (hm : (f d m).maskBits = m.setWidth 16)
    (hf : ∀ data mask, decodeChannelWrite c r data mask = .instr (f (lowLane data) (lowLane mask))) :
    decode (encode (f d m)) = .instr (f d m) :=
  decode_encode_of_encodes (encodes_channelWrite hr hf) hop (by rw [hd, hm, lowLane_setWidth, lowLane_setWidth])

end

/-- Settles O1, by the row of the tables that a constructor stands in: its operation code selects the constructor, and
each operand is found again in the field that the encoder put it in. -/
theorem decodeOfEncode : Obligations.DecodeOfEncode := by
  intro i
  cases i with
  | rdDmabcr => exact decode_encode_of_encodes encodes_rdDmabcr rfl rfl
  | rdDmawer => exact decode_encode_of_encodes encodes_rdDmawer rfl rfl
  | wrDmabcr d m => exact decode_encode_of_encodes encodes_wrDmabcr rfl rfl
  | wrDmawer d m =>
    refine decode_encode_of_encodes encodes_wrDmawer rfl ?_
    rw [← lowLane_eq_setWidth, ← lowLane_eq_setWidth, Instr.dataBits, Instr.maskBits, lowLane_setWidth, lowLane_setWidth]
  | rdMarah c | rdMaral c | rdIoara c | rdEtcra c | rdMarbh c | rdMarbl c | rdIoarb c | rdEtcrb c | rdDmacr c
  | rdDtcra c | rdDtcrb c | rdIoara8 c | rdIoarb8 c => exact decode_encode_channelRead (by decide) rfl rfl
  | wrMaral c d m | wrIoara c d m | wrEtcra c d m | wrMarbl c d m | wrIoarb c d m | wrEtcrb c d m
  | wrDmacr c d m =>
    exact decode_encode_channelWrite (by decide) rfl _ (fun _ _ => rfl) rfl
  | wrMarah c d m | wrMarbh c d m | wrDtcra c d m | wrDtcrb c d m | wrIoara8 c d m | wrIoarb8 c d m =>
    exact decode_encode_channelByteWrite (by decide) rfl rfl rfl fun _ _ => rfl
  | reset => exact decode_encode_of_encodes encodes_reset rfl rfl
  | trig v => exact decode_encode_of_encodes encodes_trig rfl rfl
  | dreq l a =>
    obtain ⟨hline, hlevel⟩ := dreq_dataBits l a
    exact decode_encode_of_encodes encodes_dreq rfl (by rw [hline, hlevel])
  | clrdte id => exact decode_encode_of_encodes encodes_clrdte rfl rfl
  | last id => exact decode_encode_of_encodes encodes_last rfl rfl
  | done id => exact decode_encode_of_encodes encodes_done rfl rfl

/-- Settles O4: each word is what the encoder writes for its transaction. -/
theorem sampleWordsDecode : Obligations.SampleWordsDecode :=
  ⟨decodeOfEncode (.wrDmabcr 0x0033#16 0x00FF#16), decodeOfEncode (.wrMaral .ch1 0x8000#16 0xFFFF#16),
    decodeOfEncode (.wrEtcrb .ch0 0x0008#16 0x00FF#16), decodeOfEncode (.wrDtcra .ch1 0xDE#8 0xFF#8),
    decodeOfEncode (.rdIoara8 .ch0), decodeOfEncode (.trig 0xFFFD#16), decodeOfEncode (.dreq 0#8 true),
    decodeOfEncode (.done 1#16)⟩

/-! ### The operation code a word was read by -/

/-- The operation code of what a word decoded to. -/
def Decoded.opcode? : Decoded → Option Byte
  | .instr i => some i.opcode
  | .reservedOpcode => none

/-- The reserved operation codes (R77). -/
def reservedOp (op : Byte) : Bool :=
  if op.getLsbD 7 then 6 ≤ op.toNat % 128
  else if op.getLsbD 5 then 13 ≤ op.toNat % 16
  else op.getLsbD 4 || 2 ≤ op.toNat % 16

theorem decodeEvent_opcode? (e : Nat) (data : Half) :
    (decodeEvent e data).opcode? = if e < 6 then some (BitVec.ofNat 8 (0x80 + e)) else none := by
  match e with
  | 0 | 1 | 2 | 3 | 4 | 5 => rfl
  | _ + 6 => rfl

theorem decodeChannelRead_opcode? (c : Chan) (r : Nat) :
    (decodeChannelRead c r).opcode? = if r < 13 then some (readOp c r) else none := by
  match r with
  | 0 | 1 | 2 | 3 | 4 | 5 | 6 | 7 | 8 | 9 | 10 | 11 | 12 => rfl
  | _ + 13 => rfl

theorem decodeChannelWrite_opcode? (c : Chan) (r : Nat) (data mask : Half) :
    (decodeChannelWrite c r data mask).opcode? = if r < 13 then some (writeOp c r) else none := by
  match r with
  | 0 | 1 | 2 | 3 | 4 | 5 | 6 | 7 | 8 | 9 | 10 | 11 | 12 => rfl
  | _ + 13 => rfl

theorem decodeController_opcode? (write : Bool) (r : Nat) (data mask : Half) :
    (decodeController write r data mask).opcode? =
      if r < 2 then some (BitVec.ofNat 8 ((if write then 0x40 else 0) + r)) else none := by
  match write, r with
  | false, 0 | false, 1 | true, 0 | true, 1 => rfl
  | false, _ + 2 | true, _ + 2 => rfl

theorem decodeOp_opcode? (op : Byte) (data mask : Half) :
    (decodeOp op data mask).opcode? = if reservedOp op then none else some op := by
  cases hevent : op.getLsbD 7
  case true =>
    rw [decodeOp_event hevent, decodeEvent_opcode?]
    revert op
    decide
  case false =>
    cases hchannel : op.getLsbD 5
    case true =>
      rw [decodeOp_channel hevent hchannel]
      cases hwrite : op.getLsbD 6
      · rw [if_neg Bool.false_ne_true, decodeChannelRead_opcode?]
        revert op
        decide
      · rw [if_pos rfl, decodeChannelWrite_opcode?]
        revert op
        decide
    case false =>
      cases hnumber : op.getLsbD 4
      case false =>
        rw [decodeOp_controller hevent hchannel hnumber, decodeController_opcode?]
        revert op
        decide
      case true =>
        have hreserved : reservedOp op = true := by
          simp only [reservedOp, hevent, hchannel, hnumber, Bool.false_eq_true, if_false, Bool.true_or]
        simp only [decodeOp, hevent, hchannel, hnumber, hreserved, Bool.false_eq_true, if_false, if_true]
        rfl

theorem decode_opcode? (w : TxWord) :
    (decode w).opcode? = if reservedOp (opField w) then none else some (opField w) :=
  decodeOp_opcode? _ _ _

theorem decode_eq_reservedOpcode_iff (w : TxWord) : decode w = .reservedOpcode ↔ reservedOp (opField w) = true := by
  have h := decode_opcode? w
  cases hw : decode w with
  | reservedOpcode => cases hr : reservedOp (opField w) <;> simp [hw, hr, Decoded.opcode?] at h ⊢
  | instr i => cases hr : reservedOp (opField w) <;> simp [hw, hr, Decoded.opcode?] at h ⊢

theorem opcode_of_decode {w : TxWord} {i : Instr} (hw : decode w = .instr i) : i.opcode = opField w := by
  have h := decode_opcode? w
  rw [hw, Decoded.opcode?] at h
  split at h
  · cases h
  · exact Option.some.inj h

theorem getLsbD_opField (w : TxWord) {k : Nat} (hk : k < 8) : (opField w).getLsbD k = w.getLsbD (32 + k) := by
  simp [opField, hk]

theorem toNat_opField (w : TxWord) : (opField w).toNat = w.toNat / 2 ^ 32 % 256 := by
  rw [opField, BitVec.extractLsb'_toNat, Nat.shiftRight_eq_div_pow]

/-- Settles O3: the decoder refuses by the operation code alone, and the three disjuncts are the three parts of the
operation-code table. -/
theorem reservedOpcodesAreThoseOfTheTable : Obligations.ReservedOpcodesAreThoseOfTheTable := by
  intro w
  have hlow : w.toNat / 2 ^ 32 % 16 = (opField w).toNat % 16 := by rw [toNat_opField]; omega
  have hhigh : w.toNat / 2 ^ 36 % 8 = (opField w).toNat / 16 % 8 := by rw [toNat_opField]; omega
  rw [decode_eq_reservedOpcode_iff, hlow, hhigh, ← getLsbD_opField w (k := 7) (by decide),
    ← getLsbD_opField w (k := 5) (by decide), ← getLsbD_opField w (k := 4) (by decide)]
  generalize opField w = op
  revert op
  decide

/-! ### The rows of the opcode table -/

/-- A row's mask, as far as it reaches the operation code. -/
def OpcodeRow.opMask (row : OpcodeRow) : Byte := opField row.mask

/-- A row's pattern, as far as it reaches the operation code. -/
def OpcodeRow.opPattern (row : OpcodeRow) : Byte := opField row.pattern

/-- Every row reads the operation code alone: the lower 32 bits of its mask and of its pattern are 0. -/
theorem row_lower_bits : ∀ row ∈ opcodeRows, row.mask = row.opMask ++ 0#32 ∧ row.pattern = row.opPattern ++ 0#32 := by
  decide

/-- A word is of a row as soon as its operation code is. -/
theorem and_mask_eq_pattern_iff {row : OpcodeRow} (hrow : row ∈ opcodeRows) (w : TxWord) :
    w &&& row.mask = row.pattern ↔ opField w &&& row.opMask = row.opPattern := by
  obtain ⟨hmask, hpattern⟩ := row_lower_bits row hrow
  constructor
  · intro h
    rw [OpcodeRow.opMask, OpcodeRow.opPattern, ← h]
    exact BitVec.extractLsb'_and.symm
  · intro h
    apply BitVec.eq_of_getLsbD_eq
    intro k hk
    rw [BitVec.getLsbD_and, hmask, hpattern, BitVec.getLsbD_append, BitVec.getLsbD_append]
    by_cases hlow : k < 32
    · simp [hlow]
    · rw [if_neg hlow, if_neg hlow, ← h, BitVec.getLsbD_and, getLsbD_opField w (by omega)]
      congr 2
      omega

/-- No operation code of a row is reserved; a row that does not read bit 4, the channel, has two of them. -/
theorem row_not_reserved : ∀ row ∈ opcodeRows,
    (row.opMask = 0xFF#8 ∨ row.opMask = 0xEF#8) ∧ reservedOp row.opPattern = false ∧
    (row.opMask = 0xEF#8 → reservedOp (row.opPattern ||| 0x10#8) = false) := by
  decide

/-- An operation code is known by its bits but bit 4, up to that bit. -/
theorem eq_and_0xEF_or (op : Byte) : op = op &&& 0xEF#8 ∨ op = (op &&& 0xEF#8) ||| 0x10#8 := by
  revert op
  decide

theorem not_reservedOp_of_row {row : OpcodeRow} (hrow : row ∈ opcodeRows) {op : Byte}
    (hop : op &&& row.opMask = row.opPattern) : reservedOp op = false := by
  obtain ⟨hmask | hmask, hpattern, hchannel⟩ := row_not_reserved row hrow
  · have hall : op &&& 0xFF#8 = op := BitVec.and_allOnes
    rwa [← hop, hmask, hall] at hpattern
  · obtain hcode | hcode := eq_and_0xEF_or op
    · rwa [hcode, ← hmask, hop]
    · rw [hcode, ← hmask, hop, hchannel hmask]

/-- Every transaction has a row, of its own mnemonic and operation code; the channel's bit is not read. -/
theorem exists_row (i : Instr) :
    ∃ row ∈ opcodeRows, row.mnemonic = i.mnemonic ∧ i.opcode &&& row.opMask = row.opPattern := by
  have hrow : ∃ m, ⟨i.mnemonic, packWord (i.opcode &&& m) 0#16 0#16, packWord m 0#16 0#16⟩ ∈ opcodeRows := by
    cases i with
    | rdMarah c | rdMaral c | rdIoara c | rdEtcra c | rdMarbh c | rdMarbl c | rdIoarb c | rdEtcrb c | rdDmacr c
    | rdDtcra c | rdDtcrb c | rdIoara8 c | rdIoarb8 c | wrMarah c | wrMaral c | wrIoara c | wrEtcra c | wrMarbh c
    | wrMarbl c | wrIoarb c | wrEtcrb c | wrDmacr c | wrDtcra c | wrDtcrb c | wrIoara8 c | wrIoarb8 c =>
      refine ⟨0xEF#8, ?_⟩
      dsimp only [Instr.mnemonic, Instr.opcode]
      cases c <;> decide
    | _ =>
      refine ⟨0xFF#8, ?_⟩
      dsimp only [Instr.mnemonic, Instr.opcode]
      decide
  obtain ⟨m, hm⟩ := hrow
  refine ⟨_, hm, rfl, ?_⟩
  rw [OpcodeRow.opMask, OpcodeRow.opPattern, opField_packWord, opField_packWord]

/-- Two rows with one mnemonic are one row, and so are two rows that share an operation code: where both read a bit, they
ask the same of it. -/
theorem row_unique : ∀ row ∈ opcodeRows, ∀ row' ∈ opcodeRows,
    row.mnemonic = row'.mnemonic ∨ row.opPattern &&& row'.opMask = row'.opPattern &&& row.opMask → row = row' := by
  decide

/-- Settles O2: both sides turn on the operation code alone, and the row of the transaction that was read is the one
row of its mnemonic and of its operation code. -/
theorem decodeFollowsOpcodeTable : Obligations.DecodeFollowsOpcodeTable := by
  intro w row hrow
  rw [and_mask_eq_pattern_iff hrow]
  cases hw : decode w with
  | reservedOpcode =>
    have hreserved := (decode_eq_reservedOpcode_iff w).mp hw
    refine ⟨fun hop => ?_, nofun⟩
    rw [not_reservedOp_of_row hrow hop] at hreserved
    cases hreserved
  | instr i =>
    obtain ⟨row', hrow', hmnemonic, hop'⟩ := exists_row i
    rw [opcode_of_decode hw] at hop'
    constructor
    · intro hop
      have hshared : row.opPattern &&& row'.opMask = row'.opPattern &&& row.opMask := by
        rw [← hop, ← hop', BitVec.and_assoc, BitVec.and_assoc, BitVec.and_comm row.opMask]
      exact ⟨i, rfl, by rw [row_unique row hrow row' hrow' (.inr hshared), hmnemonic]⟩
    · rintro ⟨_, ⟨⟩, hi⟩
      rwa [row_unique row hrow row' hrow' (.inl (hi.symm.trans hmnemonic.symm))]

end Sys2Proof
end

section
/-! A start attempt as one equation (43_start_protocol.md R170 to R174), and the lifted suspension as an update of the
channel. -/

namespace Sys2Proof.Machine

open Sys2Proof.Safety Sys2Proof.Claims

theorem unsuspend_listener (c : Chan) (s : State) :
    unsuspend c (listener (s.chan c)) s = s.setChan c (lifted (s.chan c)) := rfl

/-- A start attempt: the fatal first, then by the cause (R170 to R174). -/
theorem attemptStart_eq (c : Chan) (v : StartCause) (s : State) :
    attemptStart c v s =
      if faultsOnAttempt (s.chan c) then .fatal (raiseFatal .blockModeStartTest s)
      else if v = .immediate then
        .ret (startsOnImmediate (s.chan c) .subA || startsOnImmediate (s.chan c) .subB) (afterImmediate c s)
      else if listens (s.chan c) && requestMatches v (s.dmacr c) then .ret true (s.setChan c (lifted (s.chan c)))
      else .ret false s := by
  split
  case isTrue hfaults => exact attemptStart_fatal c v s hfaults
  case isFalse hfaults =>
    rw [Bool.not_eq_true] at hfaults
    split
    case isTrue hv => rw [hv, attemptStart_immediate c s hfaults]
    case isFalse hv => rw [attemptStart_request c v s hv hfaults, unsuspend_listener]

/-! ### The state after an Immediate, by channel and by submodule -/

theorem chan_afterImmediate (c : Chan) (s : State) : (afterImmediate c s).chan c = armed (s.chan c) := by
  rw [afterImmediate, State.chan_hazard_out, State.chan_setChan_same]

theorem chan_other_afterImmediate (c : Chan) (s : State) : (afterImmediate c s).chan c.other = s.chan c.other := by
  rw [afterImmediate, State.chan_hazard_out, State.chan_setChan_other]

theorem sub_afterImmediate (c : Chan) (u : Sub) (s : State) :
    (afterImmediate c s).sub c u = armedSub (s.chan c) u := by
  rw [State.sub, chan_afterImmediate]
  cases u <;> rfl

/-- A start derives the TransferState and sets the in-flight bit; the submodule's registers stay (R175, R176, R181). -/
theorem armedSub_registers (ch : Channel) (u : Sub) :
    (armedSub ch u).mar = (ch.sub u).mar ∧ (armedSub ch u).ioar = (ch.sub u).ioar ∧
    (armedSub ch u).etcr = (ch.sub u).etcr ∧ (armedSub ch u).dtcr = (ch.sub u).dtcr := by
  unfold armedSub
  split <;> exact ⟨rfl, rfl, rfl, rfl⟩

end Sys2Proof.Machine
end

section
/-! What no rule reads (10_state.md R30, R33, R36, R63): one account, for every transaction, of two states that agree
but for the fields that a comparison blots out. The answers then agree up to the same fields. -/

namespace Sys2Proof.Machine

open Sys2Proof.Safety Sys2Proof.Claims

/-! ### Blots -/

/-- What a comparison of two states does to the fields that no rule reads: the identity keeps a field, a constant
blots it out. -/
structure Blot where
  dmawer : Byte → Byte
  hazard : Bool → Bool
  sae : Bool → Bool
  ts : TransferState → TransferState

/-- The blot that hides nothing. -/
def Blot.keep : Blot := ⟨id, id, id, id⟩

def Blot.sub (b : Blot) (m : Submodule) : Submodule := { m with ts := b.ts m.ts }

def Blot.chan (b : Blot) (ch : Channel) : Channel :=
  { ch with sae := b.sae ch.sae, subA := b.sub ch.subA, subB := b.sub ch.subB }

def Blot.state (b : Blot) (s : State) : State :=
  { s with dmawer := b.dmawer s.dmawer, hazard := b.hazard s.hazard, ch0 := b.chan s.ch0, ch1 := b.chan s.ch1 }

/-- A blot hides no field that a rule reads: blotting out twice, before and after an operation, hides no more than
blotting out after it. -/
structure Blot.Inert (b : Blot) : Prop where
  dmawer_idem : ∀ x, b.dmawer (b.dmawer x) = b.dmawer x
  sae_idem : ∀ x, b.sae (b.sae x) = b.sae x
  hazard_or : ∀ x y, b.hazard (b.hazard x || y) = b.hazard (x || y)
  ts_idem : ∀ t, b.ts (b.ts t) = b.ts t
  ts_autoreq : ∀ t, (b.ts t).autoreq = t.autoreq
  ts_full : ∀ ch t, b.ts (fullTransfer ch (b.ts t)) = b.ts (fullTransfer ch t)
  ts_short : ∀ ch u m, b.ts (shortTransfer ch u (b.sub m)) = b.ts (shortTransfer ch u m)
  ts_unsuspend : ∀ t, b.ts { b.ts t with suspended := false } = b.ts { t with suspended := false }

theorem Blot.Inert.keep : Blot.keep.Inert :=
  ⟨fun _ => rfl, fun _ => rfl, fun _ _ => rfl, fun _ => rfl, fun _ => rfl, fun _ _ => rfl, fun _ _ _ => rfl, fun _ => rfl⟩

/-! ### A blotted state, access by access -/

section
variable (b : Blot) (ch : Channel) (s : State) (c : Chan) (u : Sub)

@[simp] theorem Blot.chan_sub : (b.chan ch).sub u = b.sub (ch.sub u) := by
  cases u <;> rfl

@[simp] theorem Blot.chan_setSub (m : Submodule) : b.chan (ch.setSub u m) = (b.chan ch).setSub u (b.sub m) := by
  cases u <;> rfl

@[simp] theorem Blot.state_chan : (b.state s).chan c = b.chan (s.chan c) := by
  cases c <;> rfl

@[simp] theorem Blot.state_sub : (b.state s).sub c u = b.sub (s.sub c u) := by
  simp [State.sub]

@[simp] theorem Blot.state_setChan : b.state (s.setChan c ch) = (b.state s).setChan c (b.chan ch) := by
  cases c <;> rfl

@[simp] theorem Blot.state_setSub (m : Submodule) : b.state (s.setSub c u m) = (b.state s).setSub c u (b.sub m) := by
  simp [State.setSub]

@[simp] theorem Blot.state_halted : (b.state s).halted = s.halted := rfl
@[simp] theorem Blot.state_dmabcr : (b.state s).dmabcr = s.dmabcr := rfl
@[simp] theorem Blot.state_out : (b.state s).out = s.out := rfl
@[simp] theorem Blot.state_hazard : (b.state s).hazard = b.hazard s.hazard := rfl
@[simp] theorem Blot.state_dmawer : (b.state s).dmawer = b.dmawer s.dmawer := rfl
@[simp] theorem Blot.state_mar : (b.state s).mar c u = s.mar c u := by simp [State.mar, Blot.sub]
@[simp] theorem Blot.state_ioar : (b.state s).ioar c u = s.ioar c u := by simp [State.ioar, Blot.sub]
@[simp] theorem Blot.state_etcr : (b.state s).etcr c u = s.etcr c u := by simp [State.etcr, Blot.sub]
@[simp] theorem Blot.state_dtcr : (b.state s).dtcr c u = s.dtcr c u := by simp [State.dtcr, Blot.sub]
@[simp] theorem Blot.state_inflight : (b.state s).inflight c u = s.inflight c u := by simp [State.inflight, Blot.sub]
@[simp] theorem Blot.state_ts : (b.state s).ts c u = b.ts (s.ts c u) := by simp [State.ts, Blot.sub]
@[simp] theorem Blot.state_dmacr : (b.state s).dmacr c = s.dmacr c := by simp [State.dmacr, Blot.chan]
@[simp] theorem Blot.state_dte : (b.state s).dte c = s.dte c := by simp [State.dte, Blot.chan]
@[simp] theorem Blot.state_dreqPrev : (b.state s).dreqPrev c = s.dreqPrev c := by cases c <;> rfl

end

/-! ### Operations that read no blotted field -/

/-- `f` reads nothing of what `b` blots out. -/
def Blot.Unread (b : Blot) (f : State → State) : Prop := ∀ s, b.state (f (b.state s)) = b.state (f s)

/-- A procedure's result with its state changed. -/
def Proc.mapState {α : Type} (f : State → State) : Proc α → Proc α
  | .ret a s => .ret a (f s)
  | .fatal s => .fatal (f s)

/-- `p` reads nothing of what `b` blots out, neither for its result nor for its state. -/
def Blot.UnreadProc {α : Type} (b : Blot) (p : State → Proc α) : Prop :=
  ∀ s, (p (b.state s)).mapState b.state = (p s).mapState b.state

/-- `a` reads nothing of what `b` blots out, neither for its kind nor for its next state. -/
def Blot.UnreadAnswer (b : Blot) (a : State → Answer) : Prop :=
  ∀ s, mapNext b.state (a (b.state s)) = mapNext b.state (a s)

section
variable {b : Blot} (h : b.Inert)
include h

theorem Blot.Inert.sub_idem (m : Submodule) : b.sub (b.sub m) = b.sub m := by
  simp [Blot.sub, h.ts_idem]

theorem Blot.Inert.chan_idem (ch : Channel) : b.chan (b.chan ch) = b.chan ch := by
  simp [Blot.chan, h.sae_idem, h.sub_idem]

theorem Blot.Inert.hazard_idem (x : Bool) : b.hazard (b.hazard x) = b.hazard x := by
  simpa using h.hazard_or x false

theorem Blot.Inert.state_idem (s : State) : b.state (b.state s) = b.state s := by
  simp [Blot.state, h.dmawer_idem, h.hazard_idem, h.chan_idem]

/-! ### Updates of one channel or one submodule -/

theorem Blot.Inert.unread_setChan (c : Chan) {f : Channel → Channel} (hf : ∀ ch, b.chan (f (b.chan ch)) = b.chan (f ch)) :
    b.Unread fun s => s.setChan c (f (s.chan c)) := by
  intro s
  simp only [Blot.state_setChan, Blot.state_chan, h.state_idem, hf]

theorem Blot.Inert.unread_setSub (c : Chan) (u : Sub) {f : Submodule → Submodule}
    (hf : ∀ m, b.sub (f (b.sub m)) = b.sub (f m)) : b.Unread fun s => s.setSub c u (f (s.sub c u)) := by
  intro s
  simp only [Blot.state_setSub, Blot.state_sub, h.state_idem, hf]

/-- A submodule's registers beside its TransferState are not blotted out. -/
theorem Blot.Inert.unread_setMar (c : Chan) (u : Sub) (f : Addr → Addr) :
    b.Unread fun s => s.setMar c u (f (s.mar c u)) :=
  h.unread_setSub c u (f := fun m => { m with mar := f m.mar }) fun m => by simp [Blot.sub, h.ts_idem]

theorem Blot.Inert.unread_setIoar (c : Chan) (u : Sub) (x : Half) : b.Unread fun s => s.setIoar c u x :=
  h.unread_setSub c u (f := fun m => { m with ioar := x }) fun m => by simp [Blot.sub, h.ts_idem]

theorem Blot.Inert.unread_setEtcr (c : Chan) (u : Sub) (f : Half → Half) :
    b.Unread fun s => s.setEtcr c u (f (s.etcr c u)) :=
  h.unread_setSub c u (f := fun m => { m with etcr := f m.etcr }) fun m => by simp [Blot.sub, h.ts_idem]

theorem Blot.Inert.unread_setDtcr (c : Chan) (u : Sub) (f : Byte → Byte) :
    b.Unread fun s => s.setDtcr c u (f (s.dtcr c u)) :=
  h.unread_setSub c u (f := fun m => { m with dtcr := f m.dtcr }) fun m => by simp [Blot.sub, h.ts_idem]

theorem Blot.Inert.unread_setDmacr (c : Chan) (f : Half → Half) : b.Unread fun s => s.setDmacr c (f (s.dmacr c)) :=
  h.unread_setChan c (f := fun ch => { ch with dmacr := f ch.dmacr }) fun ch => by
    simp [Blot.chan, h.sae_idem, h.sub_idem]

theorem Blot.Inert.unread_setDte (c : Chan) (f : BitVec 2 → BitVec 2) : b.Unread fun s => s.setDte c (f (s.dte c)) :=
  h.unread_setChan c (f := fun ch => { ch with dte := f ch.dte }) fun ch => by
    simp [Blot.chan, h.sae_idem, h.sub_idem]

theorem Blot.Inert.unread_deriveFlags (c : Chan) : b.Unread (deriveFlags c) := by
  intro s
  simp [deriveFlags, Channel.withSlice, Blot.chan, h.state_idem, h.sub_idem]

theorem Blot.Inert.unread_storeTranslation (c : Chan) : b.Unread (storeTranslation c) := by
  intro s
  simp [storeTranslation, Channel.withLegacyFlags, Blot.chan, h.state_idem, h.sub_idem]

theorem Blot.Inert.unread_setTend (c : Chan) (level : Bool) : b.Unread fun s => s.setTend c level :=
  h.unread_setChan c (f := fun ch => { ch with tend := level }) fun ch => by
    simp [Blot.chan, h.sae_idem, h.sub_idem]

theorem Blot.Inert.unread_setInflight (c : Chan) (u : Sub) (x : Bool) : b.Unread fun s => s.setInflight c u x :=
  h.unread_setSub c u (f := fun m => { m with inflight := x }) fun m => by simp [Blot.sub, h.ts_idem]

/-- `auto_request` is read, and no blot hides it. -/
theorem Blot.Inert.unread_driveEnd (c : Chan) (u : Sub) (level : Bool) : b.Unread (driveEnd c u level) := by
  intro s
  have hread : ((b.state s).ts c u).autoreq = (s.ts c u).autoreq := by rw [Blot.state_ts, h.ts_autoreq]
  cases hauto : (s.ts c u).autoreq
  · rw [driveEnd_request level hauto, driveEnd_request level (hread.trans hauto)]
    exact congrArg (fun t : State => { t with out := s.out ++ [Event.endSignal c level] }) (h.unread_setTend c level s)
  · rw [driveEnd_auto level hauto, driveEnd_auto level (hread.trans hauto), h.state_idem]

omit h in
theorem Blot.Unread.comp {f g : State → State} (hf : b.Unread f) (hg : b.Unread g) : b.Unread fun s => f (g s) := by
  intro s
  rw [← hf, hg, hf]

theorem Blot.Inert.unread_endTransfer (c : Chan) (u : Sub) : b.Unread (endTransfer c u) :=
  (h.unread_setInflight c u false).comp (h.unread_driveEnd c u false)

/-! ### Starts -/

theorem Blot.Inert.sub_armedSub (ch : Channel) (u : Sub) :
    b.sub (armedSub (b.chan ch) u) = b.sub (armedSub ch u) := by
  have hstarts : startsOnImmediate (b.chan ch) u = startsOnImmediate ch u := by cases u <;> rfl
  cases hs : startsOnImmediate ch u
  · rw [armedSub_idle _ _ hs, armedSub_idle _ _ (hstarts.trans hs), Blot.chan_sub, h.sub_idem]
  · cases hf : ch.fae
    · rw [armedSub_short _ _ hs hf, armedSub_short _ _ (hstarts.trans hs) hf, Blot.chan_sub]
      exact congrArg (fun t => { ch.sub u with ts := t, inflight := true }) (h.ts_short ch u (ch.sub u))
    · rw [armedSub_full _ _ hs hf, armedSub_full _ _ (hstarts.trans hs) hf, Blot.chan_sub]
      exact congrArg (fun t => { ch.sub u with ts := t, inflight := true }) (h.ts_full ch (ch.sub u).ts)

theorem Blot.Inert.chan_armed (ch : Channel) : b.chan (armed (b.chan ch)) = b.chan (armed ch) := by
  have hsubs : ∀ ch, armed ch = (ch.setSub .subA (armedSub ch .subA)).setSub .subB (armedSub ch .subB) := fun _ => rfl
  rw [hsubs, hsubs, Blot.chan_setSub, Blot.chan_setSub, h.chan_idem, h.sub_armedSub, h.sub_armedSub, ← Blot.chan_setSub,
    ← Blot.chan_setSub]

/-- A hand-over writes its channel, and beside it the hazard latch, which it only ever raises, and the trace. -/
theorem Blot.Inert.unread_handedOver {f : State → State} {x : State → Bool} {l : State → List Event} (hf : b.Unread f)
    (hx : ∀ s, x (b.state s) = x s) (hl : ∀ s, l (b.state s) = l s) :
    b.Unread fun s => { f s with hazard := s.hazard || x s, out := s.out ++ l s } := by
  intro s
  have hstate := hf s
  have hlatch : b.hazard ((b.state s).hazard || x (b.state s)) = b.hazard (s.hazard || x s) := by
    rw [hx, Blot.state_hazard, h.hazard_or]
  have htrace : (b.state s).out ++ l (b.state s) = s.out ++ l s := by rw [hl, Blot.state_out]
  calc b.state { f (b.state s) with hazard := (b.state s).hazard || x (b.state s), out := (b.state s).out ++ l (b.state s) }
    _ = { b.state (f (b.state s)) with
          hazard := b.hazard ((b.state s).hazard || x (b.state s)), out := (b.state s).out ++ l (b.state s) } := rfl
    _ = { b.state (f s) with hazard := b.hazard (s.hazard || x s), out := s.out ++ l s } := by rw [hstate, hlatch, htrace]

theorem Blot.Inert.unread_afterImmediate (c : Chan) : b.Unread (afterImmediate c) :=
  h.unread_handedOver (f := fun s => s.setChan c (armed (s.chan c))) (x := fun s => restartsInFlight (s.chan c))
    (l := fun s => handoffsOf c (s.chan c)) (h.unread_setChan c h.chan_armed)
    (fun s => by rw [Blot.state_chan]; rfl) (fun s => by rw [Blot.state_chan]; rfl)

/-- The reload of a repeat-mode completion (R193). -/
theorem Blot.Inert.unread_reload (c : Chan) (u : Sub) :
    b.Unread fun s => handoff c u (s.setTs c u (shortTransfer (s.chan c) u (s.sub c u))) := by
  have hreload : b.Unread fun s => s.setSub c u
      { s.sub c u with ts := shortTransfer (s.chan c) u (s.sub c u), inflight := true } := by
    intro s
    have hshort : b.ts (shortTransfer (b.chan (s.chan c)) u (b.sub (s.sub c u))) =
        b.ts (shortTransfer (s.chan c) u (s.sub c u)) := h.ts_short (s.chan c) u (s.sub c u)
    rw [Blot.state_setSub, Blot.state_setSub, h.state_idem, Blot.state_sub, Blot.state_chan]
    exact congrArg (fun t => (b.state s).setSub c u { s.sub c u with ts := t, inflight := true }) hshort
  simp only [handoff_setTs]
  exact h.unread_handedOver hreload (fun s => Blot.state_inflight b s c u) fun _ => rfl

/-! ### The other updates of the state -/

theorem Blot.Inert.unread_raiseFatal (r : FatalReason) : b.Unread (raiseFatal r) := by
  intro s
  exact congrArg (raiseFatal r) (h.state_idem s)

theorem Blot.Inert.unread_setDreqPrev (c : Chan) (x : Bool) : b.Unread fun s => s.setDreqPrev c x := by
  intro s
  exact congrArg (fun t : State => t.setDreqPrev c x) (h.state_idem s)

theorem Blot.Inert.unread_outcome (o : TxOutcome) : b.Unread fun s => { s with outcome := o } := by
  intro s
  exact congrArg (fun t : State => { t with outcome := o }) (h.state_idem s)

theorem Blot.Inert.unread_setDmabcr (f : Half → Half) : b.Unread fun s => { s with dmabcr := f s.dmabcr } := by
  intro s
  exact congrArg (fun t : State => { t with dmabcr := f t.dmabcr }) (h.state_idem s)

theorem Blot.Inert.unread_setDmawer (x : Byte) : b.Unread fun s => { s with dmawer := x } := by
  intro s
  exact congrArg (fun t : State => { t with dmawer := b.dmawer x }) (h.state_idem s)

theorem Blot.Inert.unread_emit (e : Event) : b.Unread fun s => s.emit e := by
  intro s
  exact congrArg (fun t : State => t.emit e) (h.state_idem s)

omit h in
theorem Blot.Unread.ite {p : State → Bool} {f g : State → State} (hp : ∀ s, p (b.state s) = p s) (hf : b.Unread f)
    (hg : b.Unread g) : b.Unread fun s => if p s then f s else g s := by
  intro s
  simp only [hp]
  split
  · exact hf s
  · exact hg s

theorem Blot.Inert.unread_retire (c : Chan) (e u : Sub) : b.Unread (retire c e u) := by
  have hirq : b.Unread fun s => if flagBit (s.chan c).dtie e then s.emit (.irq (Config.irqBase c + u.toNat)) else s :=
    .ite (fun s => by rw [Blot.state_chan]; rfl) (h.unread_emit _) h.state_idem
  exact hirq.comp ((h.unread_setDtcr c e (clearBit · 7)).comp
    ((h.unread_setDmabcr (clearBit · (4 + (packedId c e).toNat))).comp (h.unread_setDte c (clearBit · e.toNat))))

omit h in
/-- RESET reads what waits and how often the block was reset, and nothing else (R220). -/
theorem Blot.unread_resetBlock : b.Unread resetBlock := fun _ => rfl

end

/-! ### Procedures -/

section
variable {b : Blot} {α β : Type}

theorem Blot.Unread.ret {f : State → State} {r : State → α} (hf : b.Unread f) (hr : ∀ s, r (b.state s) = r s) :
    b.UnreadProc fun s => .ret (r s) (f s) := by
  intro s
  simp only [hr, Proc.mapState, hf s]

theorem Blot.Unread.retConst {f : State → State} (hf : b.Unread f) (a : α) : b.UnreadProc fun s => .ret a (f s) :=
  hf.ret fun _ => rfl

theorem Blot.Unread.fatal {f : State → State} (hf : b.Unread f) : b.UnreadProc fun s => (.fatal (f s) : Proc α) :=
  fun s => congrArg Proc.fatal (hf s)

theorem Blot.UnreadProc.ite {p : State → Bool} {f g : State → Proc α} (hp : ∀ s, p (b.state s) = p s)
    (hf : b.UnreadProc f) (hg : b.UnreadProc g) : b.UnreadProc fun s => if p s then f s else g s := by
  intro s
  simp only [hp]
  split
  · exact hf s
  · exact hg s

/-- Two runs that agree but for the blot end alike: with one value, or both in a fatal. -/
theorem Blot.UnreadProc.cases {p : State → Proc α} (hp : b.UnreadProc p) (s : State) :
    ∃ t t', b.state t = b.state t' ∧
      ((∃ a, p (b.state s) = .ret a t ∧ p s = .ret a t') ∨ (p (b.state s) = .fatal t ∧ p s = .fatal t')) := by
  have hs := hp s
  cases hblot : p (b.state s) <;> cases hplain : p s <;> simp_all [Proc.mapState]

theorem Blot.UnreadProc.bind {p : State → Proc α} {f : α → State → Proc β} (hp : b.UnreadProc p)
    (hf : ∀ a, b.UnreadProc (f a)) : b.UnreadProc fun s => (p s).bind f := by
  intro s
  obtain ⟨t, t', ht, ⟨a, hblot, hplain⟩ | ⟨hblot, hplain⟩⟩ := hp.cases s
  · dsimp only
    rw [hblot, hplain, Proc.bind_ret, Proc.bind_ret, ← hf a t, ht, hf a t']
  · dsimp only
    rw [hblot, hplain]
    exact congrArg Proc.fatal ht

/-- A step before a procedure. -/
theorem Blot.UnreadProc.comp {p : State → Proc α} {f : State → State} (hp : b.UnreadProc p) (hf : b.Unread f) :
    b.UnreadProc fun s => p (f s) := by
  intro s
  rw [← hp, hf, hp]

end

section
variable {b : Blot} (h : b.Inert)
include h

theorem Blot.Inert.unread_ret {α : Type} (a : α) : b.UnreadProc (.ret a) := fun s => congrArg (Proc.ret a) (h.state_idem s)

/-- No blot hides what a start attempt tests, and what it does to a channel reads no blotted field (R170 to R174). -/
theorem Blot.Inert.unread_attemptStart (c : Chan) (v : StartCause) : b.UnreadProc (attemptStart c v) := by
  have hlifted (ch : Channel) : b.chan (lifted (b.chan ch)) = b.chan (lifted ch) := by
    have hlistener : listener (b.chan ch) = listener ch := rfl
    simp only [lifted, hlistener, Blot.chan_setSub, Blot.chan_sub, h.chan_idem, Blot.sub, h.ts_unsuspend]
  have hread {f : Channel → Bool} (hf : ∀ ch, f (b.chan ch) = f ch) (s : State) :
      f ((b.state s).chan c) = f (s.chan c) := by rw [Blot.state_chan, hf]
  have hfatal := (h.unread_raiseFatal .blockModeStartTest).fatal (α := Bool)
  rw [show attemptStart c v = _ from funext (attemptStart_eq c v)]
  refine .ite (hread fun _ => rfl) hfatal ?_
  by_cases hv : v = .immediate
  · simp only [hv, if_true]
    exact (h.unread_afterImmediate c).ret 
      (hread (f := fun ch => startsOnImmediate ch .subA || startsOnImmediate ch .subB) fun _ => rfl)
  · simp only [hv, if_false]
    exact .ite (hread (f := fun ch => listens ch && requestMatches v ch.dmacr) fun _ => rfl)
      ((h.unread_setChan c hlifted).ret fun _ => rfl) (h.unread_ret _)

theorem Blot.Inert.unread_transferDone (c : Chan) (u : Sub) : b.UnreadProc (transferDone c u) := by
  have hend := h.unread_endTransfer c u
  have hread {f : Channel → Bool} (hf : ∀ ch, f (b.chan ch) = f ch) (s : State) :
      f ((b.state s).chan c) = f (s.chan c) := by rw [Blot.state_chan, hf]
  rw [show transferDone c u = _ from funext (transferDone_cases c u)]
  exact .ite (hread fun _ => rfl)
    (.ite (hread (f := fun ch => blockBit ch.dmacr) fun _ => rfl) ((h.unread_raiseFatal _).comp hend).fatal
      (((h.unread_retire c .subA u).comp hend).ret fun _ => rfl))
    (.ite (hread (f := fun ch => isRepeat ch u) fun _ => rfl) (((h.unread_reload c u).comp hend).ret fun _ => rfl)
      (((h.unread_retire c u u).comp hend).ret fun _ => rfl))

theorem Blot.Inert.unread_writeDtcr (c : Chan) (u : Sub) (d : Byte) : b.UnreadProc (writeDtcr c u d) := by
  have htranslate := (h.unread_attemptStart c .immediate).comp (h.unread_storeTranslation c)
  have hwritten : b.UnreadProc fun t => if bothLegacyEnabled c t then
      (translateLegacy c t).bind fun _ t' => .ret Response.none t' else .ret .none t :=
    .ite (fun s => by simp [bothLegacyEnabled]) (htranslate.bind fun _ => h.unread_ret _)
      (h.unread_ret _)
  exact hwritten.comp (h.unread_setDtcr c u fun _ => d)

theorem Blot.Inert.unread_reportAsserted (c : Chan) : b.UnreadProc (reportAsserted c) := by
  intro s
  have hedge : b.UnreadProc fun t => (attemptStart c .edge t).bind fun _ t' => .ret () t' :=
    (h.unread_attemptStart c .edge).bind fun _ => h.unread_ret _
  have hreport : b.UnreadProc fun t => (attemptStart c .level t).bind fun _ t =>
      if s.dreqPrev c then .ret () t else (attemptStart c .edge t).bind fun _ t' => .ret () t' :=
    (h.unread_attemptStart c .level).bind fun _ => .ite (fun _ => rfl) (h.unread_ret _) hedge
  simpa only [reportAsserted, Blot.state_dreqPrev] using hreport s

end

/-! ### Transactions -/

section
variable {b : Blot} {a : State → Answer} {p : State → Proc Response}

theorem Blot.UnreadAnswer.gated (ha : b.UnreadAnswer a) : b.UnreadAnswer fun s => gated s (a s) := by
  intro s
  dsimp only
  cases hs : s.halted
  · rw [gated_running s _ hs, gated_running (b.state s) _ hs, ha s]
  · rw [gated_halted s _ hs, gated_halted (b.state s) _ hs]

theorem Blot.UnreadAnswer.withFullMask {n : Nat} {mask : BitVec n} (ha : b.UnreadAnswer a) :
    b.UnreadAnswer fun s => withFullMask s mask (a s) := by
  refine gated (a := fun s => if mask = BitVec.allOnes n then a s else .refused .partialMaskOnFullWidth) fun s => ?_
  dsimp only
  split
  · exact ha s
  · rfl

theorem Blot.UnreadAnswer.withId {id : Half} {a : BitVec 2 → State → Answer} (ha : ∀ i, b.UnreadAnswer (a i)) :
    b.UnreadAnswer fun s => withId s id fun i => a i s := by
  refine gated (a := fun s => if id.toNat < 4 then a (idField id) s else .refused .idOutOfRange) fun s => ?_
  dsimp only
  split
  · exact ha _ s
  · rfl

theorem Blot.UnreadProc.finish (hp : b.UnreadProc p) : b.UnreadAnswer fun s => finish (p s) := by
  intro s
  obtain ⟨t, t', ht, ⟨r, hblot, hplain⟩ | ⟨hblot, hplain⟩⟩ := hp.cases s
  · dsimp only
    rw [hblot, hplain]
    exact congrArg (fun t => Host.Outcome.next (answered r t)) ht
  · dsimp only
    rw [hblot, hplain]
    exact congrArg Host.Outcome.next ht

/-- A transaction that always ends `ok`. -/
theorem Blot.Unread.complete {f : State → State} {r : State → Response} (hf : b.Unread f)
    (hr : ∀ s, r (b.state s) = r s) : b.UnreadAnswer fun s => complete s (r s) (f s) :=
  (hf.ret hr).finish.gated

variable (h : b.Inert)
include h

/-- A read of a register that is not blotted out. -/
theorem Blot.Inert.unread_read {r : State → Response} (hr : ∀ s, r (b.state s) = r s) :
    b.UnreadAnswer fun s => complete s (r s) s :=
  Blot.Unread.complete h.state_idem hr

/-- No transaction but the read of DMAWER reads what a blot may hide. -/
theorem Blot.Inert.unread_exec (i : Instr) (hi : i = .rdDmawer → ∀ x, b.dmawer x = x) : b.UnreadAnswer (exec i) := by
  cases i with
  | rdDmabcr => exact h.unread_read fun _ => rfl
  | wrDmabcr d m =>
    have hattempt (c : Chan) := (h.unread_attemptStart c .immediate).comp (h.unread_deriveFlags c)
    have hword := h.unread_setDmabcr (merge · d m)
    exact (((hattempt .ch0).comp hword).bind fun _ => (hattempt .ch1).bind fun _ => h.unread_ret _).finish.gated
  | rdDmawer => exact h.unread_read fun s => by rw [Blot.state_dmawer, hi rfl]
  | wrDmawer d m => exact ((h.unread_setDmawer d).retConst .none).finish.withFullMask
  | rdMarah c | rdMaral c | rdMarbh c | rdMarbl c => exact h.unread_read fun s => by rw [Blot.state_mar]
  | rdIoara c | rdIoarb c | rdIoara8 c | rdIoarb8 c => exact h.unread_read fun s => by rw [Blot.state_ioar]
  | rdEtcra c | rdEtcrb c => exact h.unread_read fun s => by rw [Blot.state_etcr]
  | rdDtcra c | rdDtcrb c => exact h.unread_read fun s => by rw [Blot.state_dtcr]
  | rdDmacr c => exact h.unread_read fun s => by rw [Blot.state_dmacr]
  | wrMarah c d m => exact (h.unread_setMar c .subA (withMarHigh · d m)).complete fun _ => rfl
  | wrMarbh c d m => exact (h.unread_setMar c .subB (withMarHigh · d m)).complete fun _ => rfl
  | wrMaral c d m => exact (h.unread_setMar c .subA (withMarLow · d m)).complete fun _ => rfl
  | wrMarbl c d m => exact (h.unread_setMar c .subB (withMarLow · d m)).complete fun _ => rfl
  | wrEtcra c d m => exact (h.unread_setEtcr c .subA (merge · d m)).complete fun _ => rfl
  | wrEtcrb c d m => exact (h.unread_setEtcr c .subB (merge · d m)).complete fun _ => rfl
  | wrDmacr c d m => exact (h.unread_setDmacr c (merge · d m)).complete fun _ => rfl
  | wrIoara c d m | wrIoara8 c d m => exact ((h.unread_setIoar c .subA _).retConst .none).finish.withFullMask
  | wrIoarb c d m | wrIoarb8 c d m => exact ((h.unread_setIoar c .subB _).retConst .none).finish.withFullMask
  | wrDtcra c d m => exact (h.unread_writeDtcr c .subA d).finish.withFullMask
  | wrDtcrb c d m => exact (h.unread_writeDtcr c .subB d).finish.withFullMask
  | reset => exact fun s => congrArg Host.Outcome.next (Blot.unread_resetBlock s)
  | trig v =>
    have hattempt (c : Chan) := h.unread_attemptStart c (causeOf v)
    exact ((hattempt .ch0).bind fun _ => (hattempt .ch1).bind fun _ => h.unread_ret _).finish.gated
  | dreq l a =>
    cases hline : lineChan l with
    | none =>
      rw [show exec (.dreq l a) = _ from funext fun s => exec_dreq_unsupported a s hline]
      exact Blot.UnreadAnswer.gated fun s => congrArg Host.Outcome.next (h.unread_outcome .ignored s)
    | some c =>
      rw [show exec (.dreq l a) = _ from funext fun s => exec_dreq_supported a s hline]
      have hreport : b.UnreadProc fun s => if a then reportAsserted c s else .ret () s :=
        .ite (fun _ => rfl) (h.unread_reportAsserted c) (h.unread_ret _)
      exact (hreport.bind fun _ => (h.unread_setDreqPrev c a).retConst .none).finish.gated
  | clrdte id => exact .withId fun i => ((h.unread_setDmabcr (clearBit · (4 + i.toNat))).retConst .none).finish
  | last id => exact .withId fun i => ((h.unread_driveEnd (idChan i) (idSub i) true).retConst .none).finish
  | done id => exact .withId fun i => ((h.unread_transferDone _ _).bind fun _ => h.unread_ret _).finish

/-- Two states that differ in blotted fields alone answer alike up to these fields. -/
theorem Blot.Inert.exec_eq_of_state_eq {i : Instr} {s s' : State} (hi : i = .rdDmawer → ∀ x, b.dmawer x = x)
    (hs : b.state s = b.state s') : mapNext b.state (exec i s) = mapNext b.state (exec i s') := by
  rw [← h.unread_exec i hi s, hs, h.unread_exec i hi s']

end

/-! ### The four comparisons -/

/-- Settles O55: the derivations of a start replace the four fields whole, and every other rule leaves them. -/
theorem progressFieldsReadByNothing : Obligations.ProgressFieldsReadByNothing := fun _ _ _ hs =>
  Blot.Inert.exec_eq_of_state_eq (b := { Blot.keep with ts := hideProgressTs })
    { Blot.Inert.keep with
      ts_idem := fun _ => rfl, ts_autoreq := fun _ => rfl, ts_full := fun _ _ => rfl, ts_short := fun _ _ _ => rfl
      ts_unsuspend := fun _ => rfl }
    (fun _ _ => rfl) hs

/-- Settles O53: DMAWER is written whole and read by RD.DMAWER alone. -/
theorem writeEnableGatesNothing : Obligations.WriteEnableGatesNothing := fun _ _ _ hi =>
  Blot.Inert.exec_eq_of_state_eq (b := { Blot.keep with dmawer := fun _ => 0#8 })
    { Blot.Inert.keep with dmawer_idem := fun _ => rfl } (fun h => absurd h hi) rfl

/-- Settles O54: the auxiliary flag is written whole, with the other flags of its channel, and read by nothing. -/
theorem auxiliaryFlagReadByNothing : Obligations.AuxiliaryFlagReadByNothing := fun _ _ _ =>
  Blot.Inert.exec_eq_of_state_eq (b := { Blot.keep with sae := fun _ => false })
    { Blot.Inert.keep with sae_idem := fun _ => rfl } (fun _ _ => rfl) rfl

/-- R36: the hazard latch is read by nothing but its own update. -/
theorem exec_hazard_inert (i : Instr) (s : State) (x : Bool) :
    mapNext (fun t => { t with hazard := false }) (exec i { s with hazard := x }) =
      mapNext (fun t => { t with hazard := false }) (exec i s) :=
  Blot.Inert.exec_eq_of_state_eq (b := { Blot.keep with hazard := fun _ => false })
    { Blot.Inert.keep with hazard_or := fun _ _ => rfl } (fun _ _ => rfl) rfl

end Sys2Proof.Machine
end

section
/-! What a transaction can do at all (40_controller.md R110, 60_exceptions.md R206 to R209): one relation between the
state before and the state reached, closed under composition, which every procedure of every transaction keeps. The
whole-machine rules are read off it. -/

namespace Sys2Proof

open Sys2Proof.Machine Sys2Proof.Claims

theorem Chan.eq_or_eq_other (c d : Chan) : d = c ∨ d = c.other := by
  cases c <;> cases d <;> decide

theorem Claims.eq_idOperand {id : Half} (hid : id.toNat < 4) :
    id = idOperand (idChan (idField id)) (idSub (idField id)) := by
  have hcases : id = 0#16 ∨ id = 1#16 ∨ id = 2#16 ∨ id = 3#16 := by bv_omega
  obtain rfl | rfl | rfl | rfl := hcases <;> rfl

theorem Claims.eq_lineOperand {l : Byte} {c : Chan} (hline : lineChan l = some c) : l = lineOperand c := by
  unfold lineChan at hline
  split at hline
  · cases hline; assumption
  · split at hline
    · cases hline; assumption
    · cases hline

end Sys2Proof

namespace Sys2Proof.Machine

open Sys2Proof.Safety Sys2Proof.Claims

/-! ### The transfer-end line and the trace -/

/-- The level of a channel's transfer-end line after more events, from its level before them (R34). -/
def levelAfter (c : Chan) (level : Bool) (es : List Event) : Bool :=
  es.foldl (fun level e => match e with
    | .endSignal c' b => if c' = c then b else level
    | _ => level) level

theorem endLevel_append (c : Chan) (l es : List Event) :
    endLevel c (l ++ es) = levelAfter c (endLevel c l) es := by
  rw [endLevel, List.foldl_append]
  rfl

theorem levelAfter_append (c : Chan) (level : Bool) (l es : List Event) :
    levelAfter c level (l ++ es) = levelAfter c (levelAfter c level l) es := List.foldl_append

/-- The events a transaction may emit while no fatal ends it (R206, R207, R209). -/
def mayEmit (i : Instr) : Event → Bool
  | .irq _ => isDone i
  | .endSignal _ _ => drivesEnd i
  | .handoff _ => mayHandOff i
  | .fatal _ => false

/-! ### Evolution -/

/-- What transaction `i` may change of a submodule, its TransferState's identifier being no part of it (R32, R197). -/
structure KeepsSub (i : Instr) (c : Chan) (u : Sub) (m m' : Submodule) : Prop where
  mar : writesMar i c u = false → m'.mar = m.mar
  ioar : writesIoar i c u = false → m'.ioar = m.ioar
  etcr : writesEtcr i c u = false → m'.etcr = m.etcr
  id : m'.ts.id = m.ts.id

/-- What transaction `i` may change of the state before it ends: channels it reaches, each submodule as `KeepsSub` says,
the hazard latch upwards, and the trace at its end, by the events that tell of the end line and of the hand-overs. -/
structure Evolves (i : Instr) (s t : State) : Prop where
  halted : t.halted = s.halted
  hazard : s.hazard = true → t.hazard = true
  chan : ∀ c, mayTouch i c = false → t.chan c = s.chan c
  sub : ∀ c u, KeepsSub i c u (s.sub c u) (t.sub c u)
  trace : ∃ es, t.out = s.out ++ es ∧ (∀ e ∈ es, mayEmit i e = true) ∧
    (∀ c, (t.chan c).tend = levelAfter c (s.chan c).tend es) ∧
    ∀ c u, t.inflight c u = true → s.inflight c u = true ∨ Event.handoff (packedId c u) ∈ es

section
variable {i : Instr} {c : Chan} {u : Sub}

theorem KeepsSub.refl (m : Submodule) : KeepsSub i c u m m := ⟨fun _ => rfl, fun _ => rfl, fun _ => rfl, rfl⟩

theorem KeepsSub.trans {m m' m'' : Submodule} (h : KeepsSub i c u m m') (h' : KeepsSub i c u m' m'') :
    KeepsSub i c u m m'' :=
  ⟨fun hw => (h'.mar hw).trans (h.mar hw), fun hw => (h'.ioar hw).trans (h.ioar hw),
    fun hw => (h'.etcr hw).trans (h.etcr hw), h'.id.trans h.id⟩

theorem Evolves.trans {s t t' : State} (h : Evolves i s t) (h' : Evolves i t t') : Evolves i s t' := by
  obtain ⟨es, hout, hemit, htend, hheld⟩ := h.trace
  obtain ⟨es', hout', hemit', htend', hheld'⟩ := h'.trace
  refine ⟨h'.halted.trans h.halted, fun hz => h'.hazard (h.hazard hz), fun d hd => (h'.chan d hd).trans (h.chan d hd),
    fun d v => (h.sub d v).trans (h'.sub d v), es ++ es', ?_, ?_, fun d => ?_, fun d v hfl => ?_⟩
  · rw [hout', hout, List.append_assoc]
  · intro e he
    exact (List.mem_append.mp he).elim (hemit e) (hemit' e)
  · rw [htend', htend, levelAfter_append]
  · obtain hfl | he := hheld' d v hfl
    · exact (hheld d v hfl).imp_right (List.mem_append_left es')
    · exact .inr (List.mem_append_right es he)

/-- An update beside the channels, with events that tell nothing of the end lines. -/
theorem Evolves.of_chan_eq {s t : State} {es : List Event} (hchan : ∀ d, t.chan d = s.chan d)
    (hhalted : t.halted = s.halted) (hhazard : t.hazard = s.hazard) (hout : t.out = s.out ++ es)
    (hemit : ∀ e ∈ es, mayEmit i e = true) (hquiet : ∀ d level, levelAfter d level es = level) : Evolves i s t := by
  refine ⟨hhalted, fun hz => hhazard.trans hz, fun d _ => hchan d, fun d v => ?_, es, hout, hemit, fun d => ?_,
    fun d v hfl => .inl ?_⟩
  · rw [State.sub, State.sub, hchan]
    exact .refl _
  · rw [hchan, hquiet]
  · rwa [State.inflight, State.sub, hchan] at hfl

theorem Evolves.of_same {s t : State} (hchan : ∀ d, t.chan d = s.chan d) (hhalted : t.halted = s.halted)
    (hhazard : t.hazard = s.hazard) (hout : t.out = s.out) : Evolves i s t :=
  .of_chan_eq (es := []) hchan hhalted hhazard (by rw [hout, List.append_nil]) (by simp) fun _ _ => rfl

theorem Evolves.refl (s : State) : Evolves i s s := .of_same (fun _ => rfl) rfl rfl rfl

/-- An update of one channel that the transaction reaches, with events that tell of no other channel's end line. -/
theorem Evolves.of_chan {s t : State} {es : List Event} (hc : mayTouch i c = true)
    (hother : t.chan c.other = s.chan c.other) (hhalted : t.halted = s.halted)
    (hhazard : s.hazard = true → t.hazard = true) (hsub : ∀ v, KeepsSub i c v (s.sub c v) (t.sub c v))
    (hout : t.out = s.out ++ es) (hemit : ∀ e ∈ es, mayEmit i e = true)
    (htend : (t.chan c).tend = levelAfter c (s.chan c).tend es) (hquiet : ∀ level, levelAfter c.other level es = level)
    (hheld : ∀ v, t.inflight c v = true → s.inflight c v = true ∨ Event.handoff (packedId c v) ∈ es) :
    Evolves i s t := by
  refine ⟨hhalted, hhazard, fun d hd => ?_, fun d v => ?_, es, hout, hemit, fun d => ?_, fun d v hfl => ?_⟩
  all_goals obtain rfl | rfl := Chan.eq_or_eq_other c d
  · rw [hc] at hd; cases hd
  · exact hother
  · exact hsub v
  · rw [State.sub, State.sub, hother]; exact .refl _
  · exact htend
  · rw [hother, hquiet]
  · exact hheld v hfl
  · rw [State.inflight, State.sub, hother] at hfl; exact .inl hfl

/-! ### The updates that transactions are made of -/

section
variable {s : State}

/-- A channel's registers and TransferStates, its in-flight bits downwards. -/
theorem Evolves.setChan {ch : Channel} (hc : mayTouch i c = true)
    (hsub : ∀ v, KeepsSub i c v (s.sub c v) (ch.sub v)) (htend : ch.tend = (s.chan c).tend)
    (hheld : ∀ v, (ch.sub v).inflight = true → s.inflight c v = true) : Evolves i s (s.setChan c ch) := by
  have hnew (v : Sub) : (s.setChan c ch).sub c v = ch.sub v := by rw [State.sub, State.chan_setChan_same]
  refine .of_chan (es := []) hc (State.chan_setChan_other s c ch) rfl id (fun v => ?_) (List.append_nil _).symm (by simp)
    ?_ (fun _ => rfl) fun v hfl => .inl (hheld v ?_)
  · rw [hnew]; exact hsub v
  · rw [State.chan_setChan_same]; exact htend
  · rwa [State.inflight, hnew] at hfl

/-- Flags and control word of a channel (R79, R137, R151, R192). -/
theorem Evolves.setFlags {ch : Channel} (hc : mayTouch i c = true) (hsub : ∀ v, ch.sub v = s.sub c v)
    (htend : ch.tend = (s.chan c).tend) : Evolves i s (s.setChan c ch) :=
  .setChan hc (fun v => by rw [hsub]; exact .refl _) htend fun v hfl => by rwa [hsub] at hfl

theorem Evolves.setSub {m : Submodule} (hc : mayTouch i c = true) (hm : KeepsSub i c u (s.sub c u) m)
    (hheld : m.inflight = true → s.inflight c u = true) : Evolves i s (s.setSub c u m) := by
  refine .setChan hc (fun v => ?_) rfl fun v => ?_
  all_goals rw [Channel.sub_setSub]; split
  case isTrue huv => subst huv; exact hm
  case isFalse => exact .refl _
  case isTrue huv => subst huv; exact hheld
  case isFalse => exact id

theorem Evolves.setMar {a : Addr} (hw : writesMar i c u = true) (hc : mayTouch i c = true) :
    Evolves i s (s.setMar c u a) :=
  .setSub hc ⟨fun h => absurd hw (by simp [h]), fun _ => rfl, fun _ => rfl, rfl⟩ id

theorem Evolves.setIoar {x : Half} (hw : writesIoar i c u = true) (hc : mayTouch i c = true) :
    Evolves i s (s.setIoar c u x) :=
  .setSub hc ⟨fun _ => rfl, fun h => absurd hw (by simp [h]), fun _ => rfl, rfl⟩ id

theorem Evolves.setEtcr {x : Half} (hw : writesEtcr i c u = true) (hc : mayTouch i c = true) :
    Evolves i s (s.setEtcr c u x) :=
  .setSub hc ⟨fun _ => rfl, fun _ => rfl, fun h => absurd hw (by simp [h]), rfl⟩ id

theorem Evolves.setDmacr {x : Half} (hc : mayTouch i c = true) : Evolves i s (s.setDmacr c x) :=
  .setFlags hc (fun v => by cases v <;> rfl) rfl

theorem Evolves.setDmabcr (w : Half) : Evolves i s { s with dmabcr := w } :=
  .of_same (State.chan_dmabcr s · w) rfl rfl rfl

theorem Evolves.setDmawer (x : Byte) : Evolves i s { s with dmawer := x } :=
  .of_same (State.chan_dmawer s · x) rfl rfl rfl

theorem Evolves.setDreqPrev (x : Bool) : Evolves i s (s.setDreqPrev c x) :=
  .of_same (State.chan_setDreqPrev s c · x) rfl rfl rfl

theorem Evolves.deriveFlags (hc : mayTouch i c = true) : Evolves i s (deriveFlags c s) :=
  .setFlags hc (fun v => by cases v <;> rfl) rfl

theorem Evolves.setDtcr {x : Byte} (hc : mayTouch i c = true) : Evolves i s (s.setDtcr c u x) :=
  .setSub hc ⟨fun _ => rfl, fun _ => rfl, fun _ => rfl, rfl⟩ id

theorem Evolves.lift (hc : mayTouch i c = true) : Evolves i s (s.setChan c (lifted (s.chan c))) :=
  .setSub hc ⟨fun _ => rfl, fun _ => rfl, fun _ => rfl, rfl⟩ id

theorem Evolves.land (hc : mayTouch i c = true) : Evolves i s (s.setInflight c u false) :=
  .setSub hc ⟨fun _ => rfl, fun _ => rfl, fun _ => rfl, rfl⟩ nofun

/-- The end signal (R190, R191). -/
theorem Evolves.driveEnd (hc : mayTouch i c = true) (hi : drivesEnd i = true) (level : Bool) :
    Evolves i s (driveEnd c u level s) := by
  cases hauto : (s.ts c u).autoreq
  case true =>
    rw [driveEnd_auto level hauto]
    exact .refl s
  case false =>
    have hdriven := driveEnd_request level hauto
    have hchan : (Machine.driveEnd c u level s).chan c = { s.chan c with tend := level } := by
      rw [hdriven, State.chan_out, State.setTend, State.chan_setChan_same]
    have hsub (v : Sub) : (Machine.driveEnd c u level s).sub c v = s.sub c v := by
      rw [State.sub, hchan]
      cases v <;> rfl
    refine .of_chan (es := [.endSignal c level]) hc (by cases c <;> rfl) rfl id (fun v => ?_) (by rw [hdriven])
      (by simpa [mayEmit] using hi) ?_ (fun _ => by cases c <;> rfl) fun v hfl => .inl ?_
    · rw [hsub]
      exact .refl _
    · rw [hchan]
      simp [levelAfter]
    · rwa [State.inflight, hsub] at hfl

/-- A hand-over (R181). -/
theorem Evolves.handoff {x : TransferState} (hc : mayTouch i c = true) (hi : mayHandOff i = true)
    (hx : x.id = (s.ts c u).id) : Evolves i s (handoff c u (s.setTs c u x)) := by
  have hother : (Machine.handoff c u (s.setTs c u x)).sub c u.other = s.sub c u.other := by
    cases c <;> cases u <;> rfl
  refine .of_chan (es := [.handoff (packedId c u)]) hc (by cases c <;> rfl) rfl (fun hz => ?_) (fun v => ?_)
    (out_handoff_setTs c u x s) (by simpa [mayEmit] using hi) (by cases c <;> rfl) (fun _ => rfl) fun v hfl => ?_
  · rw [hazard_handoff_setTs, hz, Bool.true_or]
  · obtain rfl | rfl := Sub.eq_or_eq_other u v
    · rw [sub_handoff_setTs]
      exact ⟨fun _ => rfl, fun _ => rfl, fun _ => rfl, hx⟩
    · rw [hother]
      exact .refl _
  · obtain rfl | rfl := Sub.eq_or_eq_other u v
    · exact .inr (List.mem_singleton_self _)
    · rw [State.inflight, hother] at hfl
      exact .inl hfl

theorem keepsSub_armedSub (ch : Channel) (v : Sub) : KeepsSub i c v (ch.sub v) (armedSub ch v) := by
  unfold armedSub
  split
  · refine ⟨fun _ => rfl, fun _ => rfl, fun _ => rfl, ?_⟩
    cases ch.fae <;> rfl
  · exact .refl _

theorem handoff_mem_handoffsOf {ch : Channel} {v : Sub} (hv : startsOnImmediate ch v = true) :
    Event.handoff (packedId c v) ∈ handoffsOf c ch := by
  cases v <;> simp [handoffsOf, hv]

theorem eq_handoff_of_mem_handoffsOf {ch : Channel} {e : Event} (he : e ∈ handoffsOf c ch) :
    ∃ v, e = .handoff (packedId c v) := by
  obtain he | he := List.mem_append.mp he
  all_goals
    split at he
    · exact ⟨_, List.mem_singleton.mp he⟩
    · cases he

theorem levelAfter_handoffsOf (d : Chan) (level : Bool) (ch : Channel) : levelAfter d level (handoffsOf c ch) = level := by
  unfold handoffsOf
  cases startsOnImmediate ch .subA <;> cases startsOnImmediate ch .subB <;> rfl

/-- An Immediate attempt hands over what it starts (R171, R172). -/
theorem Evolves.afterImmediate (hc : mayTouch i c = true) (hi : mayHandOff i = true) :
    Evolves i s (afterImmediate c s) := by
  have hsub (v : Sub) := sub_afterImmediate c v s
  refine .of_chan (es := handoffsOf c (s.chan c)) hc (chan_other_afterImmediate c s) rfl (fun hz => ?_) (fun v => ?_) rfl
    (fun e he => ?_) ?_ (fun level => levelAfter_handoffsOf _ level _) fun v hfl => ?_
  · rw [Safety.afterImmediate, hz, Bool.true_or]
  · rw [hsub]
    exact keepsSub_armedSub _ v
  · obtain ⟨v, rfl⟩ := eq_handoff_of_mem_handoffsOf he
    exact hi
  · rw [chan_afterImmediate, levelAfter_handoffsOf]
    rfl
  · cases hv : startsOnImmediate (s.chan c) v
    · rw [State.inflight, hsub, armedSub_idle _ _ hv] at hfl
      exact .inl hfl
    · exact .inr (handoff_mem_handoffsOf hv)

theorem Evolves.emitIrq (hi : isDone i = true) (n : Nat) : Evolves i s (s.emit (.irq n)) :=
  .of_chan_eq (es := [.irq n]) (fun d => State.chan_emit s d _) rfl rfl rfl (by simpa [mayEmit] using hi) fun _ _ => rfl

/-- A one-shot completion (R192, R194). -/
theorem Evolves.retire (hc : mayTouch i c = true) (hi : isDone i = true) (e : Sub) :
    Evolves i s (retire c e u s) := by
  have hdte : Evolves i s (s.setDte c (clearBit (s.dte c) e.toNat)) :=
    .setFlags hc (fun v => by cases v <;> rfl) rfl
  have hword (t : State) : Evolves i t (clearEnable (packedId c e) t) := .setDmabcr _
  have hstored := (hdte.trans (hword _)).trans
    (.setDtcr (u := e) (x := clearBit ((clearEnable (packedId c e) (s.setDte c (clearBit (s.dte c) e.toNat))).dtcr c e) 7) hc)
  dsimp only [Machine.retire]
  split
  · exact hstored.trans (.emitIrq hi _)
  · exact hstored

end

end

/-! ### Procedures -/

/-- The reasons by which a transaction may end in a fatal (R201). -/
def mayEndIn (i : Instr) : FatalReason → Bool
  | .blockModeStartTest => mayAttempt i
  | .blockModeStart => false
  | .blockModeDone => isDone i

/-- What a procedure of transaction `i` may come to from `s`. -/
def Proc.Runs {α : Type} (i : Instr) (s : State) : Proc α → Prop
  | .ret _ t => Evolves i s t
  | .fatal t => ∃ s' r, Evolves i s s' ∧ mayEndIn i r = true ∧ t = raiseFatal r s'

section
variable {i : Instr} {c : Chan} {u : Sub} {s : State} {α β : Type}

theorem Proc.Runs.after {p : Proc α} {t : State} (ht : Evolves i s t) (hp : p.Runs i t) : p.Runs i s := by
  cases p with
  | ret a t' => exact ht.trans hp
  | fatal t' =>
    obtain ⟨s', r, hev, hr, hfatal⟩ := hp
    exact ⟨s', r, ht.trans hev, hr, hfatal⟩

theorem Proc.Runs.bind {p : Proc α} {f : α → State → Proc β} (hp : p.Runs i s) (hf : ∀ a t, (f a t).Runs i t) :
    (p.bind f).Runs i s := by
  cases p with
  | ret a t => exact .after hp (hf a t)
  | fatal t => exact hp

theorem Proc.Runs.ret (a : α) : (Proc.ret a s).Runs i s := .refl s

theorem attemptStart_runs (hc : mayTouch i c = true) (hattempt : mayAttempt i = true) (v : StartCause)
    (hv : v = .immediate → mayHandOff i = true) : (attemptStart c v s).Runs i s := by
  rw [attemptStart_eq]
  split
  · exact ⟨s, .blockModeStartTest, .refl s, hattempt, rfl⟩
  · split
    case isTrue himm => exact .afterImmediate hc (hv himm)
    case isFalse =>
      split
      · exact .lift hc
      · exact .refl s

theorem transferDone_runs (hc : mayTouch i c = true) (hdone : isDone i = true) (hend : drivesEnd i = true)
    (hhand : mayHandOff i = true) : (transferDone c u s).Runs i s := by
  have hprologue : Evolves i s ((driveEnd c u false s).setInflight c u false) := (Evolves.driveEnd hc hend false).trans (.land hc)
  rw [transferDone_cases]
  refine .after hprologue ?_
  dsimp only
  split
  · split
    · exact ⟨_, .blockModeDone, .refl _, hdone, rfl⟩
    · exact .retire hc hdone .subA
  · split
    · exact .handoff hc hhand rfl
    · exact .retire hc hdone u

theorem writeDtcr_runs {d : Byte} (hc : mayTouch i c = true) (hattempt : mayAttempt i = true) (hhand : mayHandOff i = true) :
    (writeDtcr c u d s).Runs i s := by
  have hstored (t : State) : Evolves i t (storeTranslation c t) := .setFlags hc (fun v => by cases v <;> rfl) rfl
  refine .after (.setDtcr (u := u) (x := d) hc) ?_
  unfold writeDtcr
  dsimp only
  split
  · exact .bind (.after (hstored _) (attemptStart_runs hc hattempt .immediate fun _ => hhand)) fun _ _ => .ret Response.none
  · exact .ret Response.none

theorem reportAsserted_runs (hc : mayTouch i c = true) (hattempt : mayAttempt i = true) :
    (reportAsserted c s).Runs i s := by
  refine .bind (attemptStart_runs hc hattempt .level nofun) fun _ t => ?_
  split
  · exact .ret ()
  · exact .bind (attemptStart_runs hc hattempt .edge nofun) fun _ t' => .ret ()

end

/-! ### Transactions -/

/-- How a transaction but RESET ends: with an outcome that is no fatal, or in a fatal it may end in (R10, R202). -/
inductive Ends (i : Instr) (s : State) : State → Prop
  | normal (o : TxOutcome) (ho : ∀ r, o ≠ .fatal r) : Ends i s { s with outcome := o }
  | fatal (r : FatalReason) (hr : mayEndIn i r = true) : Ends i s (raiseFatal r s)

section
variable {i : Instr} {s t : State}

theorem Proc.Runs.finish {p : Proc Response} (hp : p.Runs i s) (ht : finish p = .next t) :
    ∃ s', Evolves i s s' ∧ Ends i s' t := by
  cases p with
  | ret r s' => cases ht; exact ⟨s', hp, .normal _ nofun⟩
  | fatal s' =>
    cases ht
    obtain ⟨s'', r, hev, hr, rfl⟩ := hp
    exact ⟨s'', hev, .fatal r hr⟩

theorem complete_evolves {t' : State} {r : Response} (hev : Evolves i s t') (ht : complete s r t' = .next t) :
    s.halted = false ∧ ∃ s', Evolves i s s' ∧ Ends i s' t := by
  obtain ⟨hrun, rfl⟩ := complete_next s t' t r ht
  exact ⟨hrun, t', hev, .normal _ nofun⟩

theorem gated_evolves {p : Proc Response} (hp : p.Runs i s) (ht : gated s (finish p) = .next t) :
    s.halted = false ∧ ∃ s', Evolves i s s' ∧ Ends i s' t := by
  obtain ⟨hrun, hfinish⟩ := gated_next s t _ ht
  exact ⟨hrun, hp.finish hfinish⟩

theorem withFullMask_evolves {n : Nat} {mask : BitVec n} {p : Proc Response} (hp : p.Runs i s)
    (ht : withFullMask s mask (finish p) = .next t) : s.halted = false ∧ ∃ s', Evolves i s s' ∧ Ends i s' t := by
  obtain ⟨hrun, -, hfinish⟩ := withFullMask_next s t mask _ ht
  exact ⟨hrun, hp.finish hfinish⟩

theorem withId_evolves {id : Half} {p : BitVec 2 → Proc Response} (hp : id.toNat < 4 → (p (idField id)).Runs i s)
    (ht : withId s id (fun x => finish (p x)) = .next t) : s.halted = false ∧ ∃ s', Evolves i s s' ∧ Ends i s' t := by
  obtain ⟨hrun, hid, hfinish⟩ := withId_next s t id _ ht
  exact ⟨hrun, (hp hid).finish hfinish⟩

/-- LAST and DONE reach the channel that their identifier names (R89). -/
theorem mayTouch_of_id {id : Half} (hid : id.toNat < 4) :
    mayTouch (.last id) (idChan (idField id)) = true ∧ mayTouch (.done id) (idChan (idField id)) = true := by
  rw [eq_idOperand hid, idField_idOperand, idChan_packedId]
  generalize idChan (idField id) = c
  generalize idSub (idField id) = u
  cases c <;> cases u <;> decide

/-- What every transaction but RESET can do: from a running block, evolve and end. -/
theorem exec_evolves (ht : exec i s = .next t) (hi : i ≠ .reset) :
    s.halted = false ∧ ∃ s', Evolves i s s' ∧ Ends i s' t := by
  have htouch {c : Chan} : (c == c) = true := beq_self_eq_true c
  cases i with
  | reset => exact absurd rfl hi
  | rdDmabcr | rdDmawer | rdMarah c | rdMaral c | rdMarbh c | rdMarbl c | rdIoara c | rdIoarb c | rdIoara8 c | rdIoarb8 c
  | rdEtcra c | rdEtcrb c | rdDmacr c | rdDtcra c | rdDtcrb c => exact complete_evolves (.refl s) ht
  | wrMarah c d m | wrMaral c d m | wrMarbh c d m | wrMarbl c d m => exact complete_evolves (.setMar htouch htouch) ht
  | wrEtcra c d m | wrEtcrb c d m => exact complete_evolves (.setEtcr htouch htouch) ht
  | wrDmacr c d m => exact complete_evolves (.setDmacr htouch) ht
  | wrIoara c d m | wrIoarb c d m | wrIoara8 c d m | wrIoarb8 c d m =>
    exact withFullMask_evolves (p := .ret .none _) (.setIoar htouch htouch) ht
  | wrDmawer d m =>
    exact withFullMask_evolves (p := .ret .none _) (.setDmawer d) ht
  | wrDtcra c d m | wrDtcrb c d m => exact withFullMask_evolves (writeDtcr_runs htouch rfl rfl) ht
  | wrDmabcr d m =>
    have hattempt (c : Chan) (t : State) := Proc.Runs.after (.deriveFlags (c := c) (s := t) rfl)
      (attemptStart_runs (i := .wrDmabcr d m) (c := c) rfl rfl .immediate fun _ => rfl)
    exact gated_evolves
      (.after (.setDmabcr _) ((hattempt .ch0 _).bind fun _ t => (hattempt .ch1 t).bind fun _ _ => .ret Response.none)) ht
  | trig v =>
    have hattempt (c : Chan) (t : State) := attemptStart_runs (i := .trig v) (c := c) (s := t) rfl rfl (causeOf v) fun _ => rfl
    exact gated_evolves ((hattempt .ch0 s).bind fun _ t => (hattempt .ch1 t).bind fun _ _ => .ret _) ht
  | dreq l a =>
    cases hline : lineChan l with
    | none =>
      rw [exec_dreq_unsupported a s hline] at ht
      obtain ⟨hrun, ⟨⟩⟩ := gated_next s t _ ht
      exact ⟨hrun, s, .refl s, .normal .ignored nofun⟩
    | some c =>
      obtain rfl := eq_lineOperand hline
      rw [exec_dreq_supported a s hline] at ht
      have hreport : (if a then reportAsserted c s else .ret () s).Runs (.dreq (lineOperand c) a) s := by
        split
        · exact reportAsserted_runs (beq_self_eq_true (lineOperand c)) rfl
        · exact .ret ()
      exact gated_evolves (p := Proc.bind _ fun _ t => .ret .none (t.setDreqPrev c a))
        (hreport.bind fun _ t => Evolves.setDreqPrev a) ht
  | clrdte id =>
    exact withId_evolves (p := fun x => .ret .none _) (fun _ => .setDmabcr _) ht
  | last id =>
    exact withId_evolves (p := fun x => .ret .none _) (fun hid => .driveEnd (mayTouch_of_id hid).1 rfl true) ht
  | done id =>
    exact withId_evolves (p := fun x => (transferDone (idChan x) (idSub x) s).bind fun _ t => .ret .none t)
      (fun hid => (transferDone_runs (mayTouch_of_id hid).2 rfl rfl rfl).bind fun _ _ => .ret Response.none) ht

/-- The end of a transaction writes no channel and no hazard latch. -/
theorem Ends.chan (h : Ends i s t) (c : Chan) : t.chan c = s.chan c := by
  cases h with
  | normal o _ => exact State.chan_outcome s c o
  | fatal r _ => exact State.chan_raiseFatal s c r

theorem Ends.hazard (h : Ends i s t) : t.hazard = s.hazard := by
  cases h <;> rfl

end

/-! ### Whole-machine rules -/

/-- Settles O51: RESET writes every register, and any other transaction evolves. -/
theorem addressAndCountRegistersHold : Obligations.AddressAndCountRegistersHold := by
  intro i s t c u ht
  by_cases hi : i = .reset
  · subst hi
    cases u <;> exact ⟨nofun, nofun, nofun⟩
  · obtain ⟨-, s', hev, hend⟩ := exec_evolves ht hi
    have hsub : t.sub c u = s'.sub c u := by rw [State.sub, State.sub, hend.chan]
    have hkeeps := hev.sub c u
    rw [← hsub] at hkeeps
    exact ⟨hkeeps.mar, hkeeps.ioar, hkeeps.etcr⟩

/-- Settles O52: RESET reaches both channels, and any other transaction evolves. -/
theorem channelsAreIndependent : Obligations.ChannelsAreIndependent := by
  intro i s t c ht hc
  by_cases hi : i = .reset
  · subst hi
    cases hc
  · obtain ⟨-, s', hev, hend⟩ := exec_evolves ht hi
    rw [hend.chan, hev.chan c hc]

/-- Settles O56: the latch only rises while a transaction evolves, and no rule reads it. -/
theorem hazardIsStickyAndInert : Obligations.HazardIsStickyAndInert := by
  refine fun i s => ⟨fun t ht hi hz => ?_, exec_hazard_inert i s⟩
  obtain ⟨-, s', hev, hend⟩ := exec_evolves ht hi
  rw [hend.hazard, hev.hazard hz]

/-- Settles O57: the events of the evolution are those that `mayEmit` allows, and a fatal comes last, by the
transactions that `mayEndIn` allows. -/
theorem eventsByTransaction : Obligations.EventsByTransaction := by
  intro i s t ht hi
  obtain ⟨-, s', hev, hend⟩ := exec_evolves ht hi
  obtain ⟨es, hout, hemit, -, -⟩ := hev.trace
  cases hend with
  | normal o _ =>
    exact ⟨es, hout, fun _ he => hemit _ he, fun _ _ he => hemit _ he, fun _ he => hemit _ he,
      fun _ he => absurd (hemit _ he) Bool.false_ne_true⟩
  | fatal r hr =>
    refine ⟨es ++ [.fatal r], by rw [raiseFatal_out, hout, List.append_assoc],
      fun n he => hemit (.irq n) (by simpa using he), fun c b he => hemit (.endSignal c b) (by simpa using he),
      fun id he => hemit (.handoff id) (by simpa using he), fun r' he => ?_⟩
    obtain he | he := List.mem_append.mp he
    · exact absurd (hemit _ he) Bool.false_ne_true
    · cases r with
      | blockModeStartTest => exact .inl hr
      | blockModeStart => cases hr
      | blockModeDone => exact .inr hr

/-- Settles O58: the last write of `outcome` is the end of the transaction. -/
theorem fatalReasonsByTransaction : Obligations.FatalReasonsByTransaction := by
  intro i s t ht
  by_cases hi : i = .reset
  · subst hi
    cases ht
    exact ⟨nofun, nofun, nofun⟩
  · obtain ⟨-, s', -, hend⟩ := exec_evolves ht hi
    cases hend with
    | normal o ho => exact ⟨fun h => absurd h (ho _), ho _, fun h => absurd h (ho _)⟩
    | fatal r hr =>
      cases r with
      | blockModeStartTest => exact ⟨fun _ => hr, nofun, nofun⟩
      | blockModeStart => cases hr
      | blockModeDone => exact ⟨nofun, nofun, fun _ => hr⟩

/-! ### The invariant -/

section
variable {s t : State}

/-- The invariant speaks of the identifiers, the end lines, the in-flight bits, the trace and the halted latch alone. -/
theorem inv_of_same (hinv : Inv s) (hid : ∀ c u, (t.ts c u).id = (s.ts c u).id)
    (htend : ∀ c, (t.chan c).tend = (s.chan c).tend) (hheld : ∀ c u, t.inflight c u = s.inflight c u)
    (hout : t.out = s.out) (hhalted : t.halted = s.halted) : Inv t where
  ids c u := by rw [hid, hinv.ids]
  ends c := by rw [htend, hout, hinv.ends]
  handed c u h := by rw [hout]; exact hinv.handed c u (by rwa [hheld] at h)
  running h := by rw [hout]; exact hinv.running (by rwa [hhalted] at h)
  stopped h := by rw [hout]; exact hinv.stopped (by rwa [hhalted] at h)

theorem inv_of_chan_eq (hinv : Inv s) (hchan : ∀ c, t.chan c = s.chan c) (hout : t.out = s.out)
    (hhalted : t.halted = s.halted) : Inv t := by
  have hsub (c : Chan) (u : Sub) : t.sub c u = s.sub c u := by rw [State.sub, State.sub, hchan]
  exact inv_of_same hinv (fun c u => by rw [State.ts, State.ts, hsub]) (fun c => by rw [hchan])
    (fun c u => by rw [State.inflight, State.inflight, hsub]) hout hhalted

theorem inv_afterReset (draw : Nat) : Inv (State.afterReset draw) where
  ids c u := by cases c <;> cases u <;> rfl
  ends c := by cases c <;> rfl
  handed c u h := by cases c <;> cases u <;> cases h
  running _ e he := by cases he
  stopped h := by cases h

/-- While a transaction evolves, the trace tells of every hand-over and every level, and of no fatal. -/
theorem inv_of_evolves {i : Instr} (hinv : Inv s) (hrun : s.halted = false) (hev : Evolves i s t) : Inv t := by
  obtain ⟨es, hout, hemit, htend, hheld⟩ := hev.trace
  have hhalted : t.halted = false := hev.halted.trans hrun
  refine ⟨fun c u => ?_, fun c => ?_, fun c u hfl => ?_, fun _ e he => ?_, fun h => ?_⟩
  · exact (hev.sub c u).id.trans (hinv.ids c u)
  · rw [htend, hout, endLevel_append, hinv.ends]
  · rw [hout, List.mem_append]
    exact (hheld c u hfl).imp_left (hinv.handed c u)
  · rw [hout] at he
    obtain he | he := List.mem_append.mp he
    · exact hinv.running hrun e he
    · have hmay := hemit e he
      cases e with
      | fatal r => cases hmay
      | _ => rfl
  · rw [hhalted] at h
    cases h

/-- A fatal is the one event of its kind, and the last (R202). -/
theorem inv_raiseFatal {r : FatalReason} (hinv : Inv s) (hrun : s.halted = false) (hr : r ≠ .blockModeStart) :
    Inv (raiseFatal r s) := by
  refine ⟨fun c u => ?_, fun c => ?_, fun c u hfl => ?_, nofun, fun _ => ⟨s.out, r, rfl, hr, hinv.running hrun⟩⟩
  · rw [State.ts, State.sub_raiseFatal]
    exact hinv.ids c u
  · rw [State.chan_raiseFatal, raiseFatal_out, endLevel_append, hinv.ends]
    rfl
  · rw [State.inflight, State.sub_raiseFatal] at hfl
    exact List.mem_append_left _ (hinv.handed c u hfl)

theorem inv_exec {i : Instr} (hinv : Inv s) (ht : exec i s = .next t) : Inv t := by
  by_cases hi : i = .reset
  · subst hi
    cases ht
    exact inv_of_chan_eq (inv_afterReset (s.resets + 1)) (fun c => by cases c <;> rfl) rfl rfl
  · obtain ⟨hrun, s', hev, hend⟩ := exec_evolves ht hi
    have hinv' := inv_of_evolves hinv hrun hev
    cases hend with
    | normal o _ => exact inv_of_chan_eq hinv' (State.chan_outcome s' · o) rfl rfl
    | fatal r hr => exact inv_raiseFatal hinv' (hev.halted.trans hrun) (by rintro rfl; cases hr)

/-- The bus master writes no identifier and no in-flight bit (R33). -/
theorem inv_applyProgress (id : BitVec 2) (p : Progress) (hinv : Inv s) : Inv (applyProgress id p s) := by
  refine inv_of_same hinv (fun c u => ?_) (fun c => ?_) (fun c u => ?_) rfl rfl
  · rw [State.ts, applyProgress, State.setTs, State.sub_setSub]
    split
    case isTrue hsame => obtain ⟨rfl, rfl⟩ := hsame; rfl
    case isFalse => rfl
  · rw [applyProgress, State.setTs, State.chan_setSub]
    split
    case isTrue hsame => subst hsame; rfl
    case isFalse => rfl
  · rw [State.inflight, applyProgress, State.setTs, State.sub_setSub]
    split
    case isTrue hsame => obtain ⟨rfl, rfl⟩ := hsame; rfl
    case isFalse => rfl

end

/-- Settles O60: the first draw is one of the draws of RESET. -/
theorem invariantHoldsAtReset : Obligations.InvariantHoldsAtReset := inv_afterReset 0

/-- Settles O59: an idle step and the service of an item leave the channels; a transaction resets the block, or evolves
and ends; the bus master writes what the invariant does not speak of. -/
theorem invariantKeptByEveryStep : Obligations.InvariantKeptByEveryStep := by
  intro s t hinv ht
  have hserved (rest : List Inbound) : Inv { s with inbox := rest } :=
    inv_of_chan_eq hinv (State.chan_inbox s · rest) rfl rfl
  unfold step at ht
  split at ht
  case h_1 => cases ht; exact hinv
  case h_2 w rest _ =>
    split at ht
    case h_1 i _ => exact inv_exec (hserved rest) ht
    case h_2 => cases ht
  case h_3 id p rest _ =>
    unfold serveBusMaster at ht
    split at ht
    case isTrue => cases ht; exact inv_applyProgress id p (hserved rest)
    case isFalse => cases ht

end Sys2Proof.Machine
end

section
/-! One step and its gate (00_scope.md R8, R10; 60_exceptions.md R200, R203), RESET (70_reset_and_hazards.md R220), and the
pseudo-transactions that write a whole address register (30_encoding.md R95). -/

namespace Sys2Proof.Machine

open Sys2Proof.Safety Sys2Proof.Claims

/-! ### Completion -/

/-- Past the gate and the operand test there is a next state, and nowhere else (R10, R205). -/
theorem gated_operandTested_next_iff (s t' : State) (found : Option IllFormed) :
    (∃ t, gated s (operandTested found t') = .next t) ↔ s.halted = false ∧ found = none := by
  cases h : s.halted
  · rw [gated_running s _ h]
    cases found <;> simp [operandTested]
  · simp [gated_halted s _ h]

theorem gated_operandTested_ne_fault (s t' : State) (found : Option IllFormed) (r : Fault) :
    gated s (operandTested found t') ≠ .fault r := by
  cases h : s.halted
  · rw [gated_running s _ h]
    cases found <;> nofun
  · rw [gated_halted s _ h]
    nofun

/-- Settles O9: a transaction but RESET is the gate, the operand test and a next state; RESET is none of the three. -/
theorem execCompletesExactlyWhenAllowed : Obligations.ExecCompletesExactlyWhenAllowed := by
  intro i s
  by_cases hi : i = .reset
  · subst hi
    exact ⟨⟨fun _ => .inl rfl, fun _ => ⟨_, exec_reset s⟩⟩, nofun⟩
  · obtain ⟨t', ht'⟩ := exec_tested s hi
    simp only [ht', hi, false_or]
    exact ⟨gated_operandTested_next_iff s t' _, gated_operandTested_ne_fault s t' _⟩

/-! ### Steps -/

/-- Settles O6. -/
theorem stepRunsTheDecodedTransaction : Obligations.StepRunsTheDecodedTransaction := fun _ _ _ _ hword hw =>
  step_transaction hword hw

/-- The bus master's write is served on the state without the item (R8, R33). -/
theorem step_busMaster {s : State} {id : BitVec 2} {p : Progress} {rest : List Inbound}
    (hitem : s.inbox = .busMaster id p :: rest) : step s = serveBusMaster id p { s with inbox := rest } := by
  simp only [step, hitem]

@[simp] theorem State.sub_inbox (s : State) (c : Chan) (u : Sub) (l : List Inbound) :
    ({ s with inbox := l } : State).sub c u = s.sub c u := by
  cases c <;> rfl

theorem serveBusMaster_held {s : State} {c : Chan} {u : Sub} (p : Progress) (hheld : s.inflight c u = true) :
    serveBusMaster (packedId c u) p s = .next (s.setTs c u { s.ts c u with
      source := p.source, dest := p.dest, count := p.count, suspended := p.suspended }) := by
  rw [serveBusMaster, applyProgress, idChan_packedId, idSub_packedId, if_pos hheld]

theorem serveBusMaster_free {s : State} {c : Chan} {u : Sub} (p : Progress) (hfree : s.inflight c u = false) :
    serveBusMaster (packedId c u) p s = .fault (.busMasterBreach (packedId c u)) := by
  rw [serveBusMaster, idChan_packedId, idSub_packedId, hfree, if_neg Bool.false_ne_true]

theorem State.setTs_setTs (s : State) (c : Chan) (u : Sub) (x y : TransferState) :
    (s.setTs c u x).setTs c u y = s.setTs c u y := by
  simp [State.setTs]

theorem State.setTs_ts_self (s : State) (c : Chan) (u : Sub) : s.setTs c u (s.ts c u) = s := State.setSub_sub_self s c u

/-- Settles O7: the service of a bus master's write is `setTs` on the state without the item, and the four fields put back
leave nothing of it. -/
theorem stepServesTheBusMaster : Obligations.StepServesTheBusMaster := by
  refine fun s => ⟨fun hidle => by simp only [step, hidle], fun c u p rest hitem => ?_⟩
  have hsub := State.sub_inbox s c u rest
  refine ⟨fun hheld => ?_, fun hfree => ?_⟩
  · rw [step_busMaster hitem, serveBusMaster_held p (by rwa [State.inflight, hsub])]
    refine ⟨_, rfl, ?_⟩
    rw [State.ts_setTs_same, State.setTs_setTs, State.ts, State.ts, hsub]
    refine ⟨rfl, rfl, rfl, rfl, ?_⟩
    rw [← hsub]
    exact State.setTs_ts_self { s with inbox := rest } c u
  · rw [step_busMaster hitem, serveBusMaster_free p (by rwa [State.inflight, hsub])]

/-- Settles O10: an idle step and a write of the bus master leave the latch, and a transaction that passes the gate is
RESET or finds the block running. -/
theorem onlyResetLeavesHalted : Obligations.OnlyResetLeavesHalted := by
  intro s t hhalted ht hrun
  unfold step at ht
  split at ht
  case h_1 =>
    cases ht
    rw [hhalted] at hrun
    cases hrun
  case h_2 w rest hword =>
    split at ht
    case h_1 i hw =>
      by_cases hi : i = .reset
      · exact ⟨w, rest, hword, hi ▸ hw⟩
      · obtain ⟨hgate, -⟩ := exec_evolves ht hi
        rw [hhalted] at hgate
        cases hgate
    case h_2 => cases ht
  case h_3 =>
    unfold serveBusMaster at ht
    split at ht
    · cases ht
      rw [applyProgress, State.setTs, State.setSub_halted, hhalted] at hrun
      cases hrun
    · cases ht

/-! ### RESET -/

/-- Settles O50: RESET is the state after the next draw, with what has arrived. -/
theorem resetSetsEveryElement : Obligations.ResetSetsEveryElement := by
  refine fun s => ⟨resetBlock s, exec_reset s, rfl, rfl, rfl, rfl, rfl, rfl, rfl, rfl, rfl, rfl, fun c => ?_, fun c u => ?_⟩
  · cases c <;> exact ⟨rfl, rfl, rfl, rfl, rfl, rfl, rfl⟩
  · cases c <;> cases u <;> exact ⟨rfl, rfl, rfl, rfl, rfl, rfl, rfl, rfl, rfl, rfl, rfl, rfl, rfl, rfl⟩

/-! ### Pseudo-transactions -/

/-- A write of all of the high part and then of all of the low part leaves the address written (R58). -/
theorem withMarLow_withMarHigh_full (old a : Addr) :
    withMarLow (withMarHigh old (marHigh a) (defaultMask 8)) (marLow a) (defaultMask 16) = a := by
  apply BitVec.eq_of_getLsbD_eq
  intro k hk
  by_cases hlow : k < 16
  · rw [getLsbD_withMarLow_low _ _ _ hlow, defaultMask, BitVec.getLsbD_allOnes, if_pos (by simpa using hlow),
      getLsbD_marLow a hlow]
  · obtain ⟨j, rfl⟩ := Nat.exists_eq_add_of_le (Nat.le_of_not_lt hlow)
    have hj : j < 8 := by omega
    rw [getLsbD_withMarLow_high _ _ _ hj, getLsbD_withMarHigh_high _ _ _ hj, defaultMask, BitVec.getLsbD_allOnes,
      if_pos (by simpa using hj), getLsbD_marHigh a hj]

theorem setMar_setMar_answered (s : State) (c : Chan) (u : Sub) (x y : Addr) :
    answered .none ((answered .none (s.setMar c u x)).setMar c u y) = answered .none (s.setMar c u y) := by
  simp only [State.setMar, setSub_answered, sub_answered, State.sub_setSub_same, State.setSub_setSub]
  rfl

/-- The two transactions of WR.MARA and of WR.MARB, on the submodule they write (R95). -/
theorem exec_marHigh_marLow {c : Chan} {u : Sub} {i j : Instr} (a : Addr) (s : State) (h : s.halted = false)
    (hi : (u = .subA ∧ i = .wrMarah c (marHigh a) (defaultMask 8)) ∨ (u = .subB ∧ i = .wrMarbh c (marHigh a) (defaultMask 8)))
    (hj : (u = .subA ∧ j = .wrMaral c (marLow a) (defaultMask 16)) ∨ (u = .subB ∧ j = .wrMarbl c (marLow a) (defaultMask 16))) :
    ∃ t, exec i s = .next t ∧ exec j t = .next (answered .none (s.setMar c u a)) := by
  refine ⟨_, exec_marHighWrite s h hi, ?_⟩
  refine (exec_marLowWrite (answered .none (s.setMar c u _)) h hj).trans ?_
  rw [mar_answered, State.mar_setMar_same, withMarLow_withMarHigh_full, setMar_setMar_answered]

/-- Settles O5: both pseudo-transactions are a full write of the high part and one of the low part. -/
theorem pseudoAddressWriteStoresTheAddress : Obligations.PseudoAddressWriteStoresTheAddress := by
  intro c a s h
  obtain ⟨t, ht, ht'⟩ := exec_marHigh_marLow (c := c) a s h (.inl ⟨rfl, rfl⟩) (.inl ⟨rfl, rfl⟩)
  obtain ⟨t₂, ht₂, ht₂'⟩ := exec_marHigh_marLow (c := c) a s h (.inr ⟨rfl, rfl⟩) (.inr ⟨rfl, rfl⟩)
  exact ⟨⟨_, _, t, rfl, ht, ht'⟩, ⟨_, _, t₂, rfl, ht₂, ht₂'⟩⟩

end Sys2Proof.Machine
end

section
/-! Start attempts as TRIG and DREQ make them (40_controller.md R104, R105; 43_start_protocol.md R170 to R174). -/

namespace Sys2Proof.Machine

open Sys2Proof.Safety Sys2Proof.Claims

/-! ### An attempt that is not fatal -/

/-- A request lifts the listener's suspension on the channels where this holds (R171 to R173). -/
def heeds (v : StartCause) (ch : Channel) : Bool := listens ch && requestMatches v ch.dmacr

/-- A channel after a request that is no Immediate. -/
def requested (v : StartCause) (ch : Channel) : Channel := if heeds v ch then lifted ch else ch

/-- The state after a start attempt on channel `c` that is not fatal. -/
def afterAttempt (c : Chan) (v : StartCause) (s : State) : State :=
  if v = .immediate then afterImmediate c s else s.setChan c (requested v (s.chan c))

/-- What a start attempt that is not fatal answers. -/
def attemptAnswer (v : StartCause) (ch : Channel) : Bool :=
  if v = .immediate then startsOnImmediate ch .subA || startsOnImmediate ch .subB else heeds v ch

theorem attemptStart_of_not_faults {c : Chan} {s : State} (v : StartCause) (h : faultsOnAttempt (s.chan c) = false) :
    attemptStart c v s = .ret (attemptAnswer v (s.chan c)) (afterAttempt c v s) := by
  by_cases hv : v = .immediate
  · subst hv
    exact attemptStart_immediate c s h
  · rw [attemptStart_request c v s hv h, attemptAnswer, afterAttempt, if_neg hv, if_neg hv, unsuspend_listener, requested]
    have hheeds : (listens (s.chan c) && requestMatches v (s.dmacr c)) = heeds v (s.chan c) := rfl
    rw [hheeds]
    cases heeds v (s.chan c)
    · simp
    · simp

theorem chan_afterAttempt_other (c : Chan) (v : StartCause) (s : State) :
    (afterAttempt c v s).chan c.other = s.chan c.other := by
  unfold afterAttempt
  split
  · exact chan_other_afterImmediate c s
  · exact State.chan_setChan_other s c _

/-! ### What an Immediate leaves of the Controller -/

theorem sameController_trans {s t t' : State} (h : sameController s t) (h' : sameController t t') : sameController s t' := by
  obtain ⟨⟨hdmawer, hprev0, hprev1, hinbox, hresets⟩, hhalted⟩ := h
  obtain ⟨⟨hdmawer', hprev0', hprev1', hinbox', hresets'⟩, hhalted'⟩ := h'
  exact ⟨⟨hdmawer'.trans hdmawer, hprev0'.trans hprev0, hprev1'.trans hprev1, hinbox'.trans hinbox, hresets'.trans hresets⟩,
    hhalted'.trans hhalted⟩

theorem sameController_afterImmediate (c : Chan) (s : State) : sameController s (afterImmediate c s) :=
  ⟨⟨rfl, rfl, rfl, rfl, rfl⟩, rfl⟩

theorem sameLines_afterImmediate (c : Chan) (s : State) : sameLines s (afterImmediate c s) :=
  (sameController_afterImmediate c s).1

/-! ### Vectors and request codes -/

theorem toInt_eq_neg_one_iff (v : Half) : v.toInt = -1 ↔ v = 0xFFFF#16 := BitVec.toInt_inj (y := 0xFFFF#16)
theorem toInt_eq_neg_two_iff (v : Half) : v.toInt = -2 ↔ v = 0xFFFE#16 := BitVec.toInt_inj (y := 0xFFFE#16)
theorem toInt_eq_neg_three_iff (v : Half) : v.toInt = -3 ↔ v = 0xFFFD#16 := BitVec.toInt_inj (y := 0xFFFD#16)

theorem causeOf_peripheral {v : Half} (himm : v ≠ 0xFFFF#16) (hlevel : v ≠ 0xFFFE#16) (hedge : v ≠ 0xFFFD#16) :
    causeOf v = .peripheral := by
  rw [causeOf, if_neg (mt (toInt_eq_neg_one_iff v).mp himm), if_neg (mt (toInt_eq_neg_two_iff v).mp hlevel),
    if_neg (mt (toInt_eq_neg_three_iff v).mp hedge)]

theorem causeOf_eq_immediate_iff (v : Half) : causeOf v = .immediate ↔ v = 0xFFFF#16 := by
  constructor
  · intro h
    by_contra himm
    rw [causeOf, if_neg (mt (toInt_eq_neg_one_iff v).mp himm)] at h
    split at h
    · cases h
    · split at h <;> cases h
  · rintro rfl
    rfl

/-- A 3-bit field compared with a code, as the remainder that the statements read (R83). -/
theorem lowField_beq (dmacr : Half) (code : BitVec 3) :
    (dmacr.extractLsb' 0 3 == code) = (dmacr.toNat % 8 == code.toNat) := by
  have hfield : (dmacr.extractLsb' 0 3).toNat = dmacr.toNat % 8 := by
    rw [BitVec.extractLsb'_toNat, Nat.shiftRight_zero]
  rw [← hfield, Bool.eq_iff_iff, beq_iff_eq, beq_iff_eq, BitVec.toNat_inj]

/-- The one request code of each vector that names a request (R87, R173). -/
theorem requestMatches_causeOf (v dmacr : Half) :
    requestMatches (causeOf v) dmacr =
      ((v == 0xFFFE#16 && dmacr.toNat % 8 == 0b011) || (v == 0xFFFD#16 && dmacr.toNat % 8 == 0b010)) := by
  by_cases himm : v = 0xFFFF#16
  · subst himm
    rfl
  by_cases hlevel : v = 0xFFFE#16
  · subst hlevel
    exact (lowField_beq dmacr 0b011#3).trans (Bool.or_false _).symm
  by_cases hedge : v = 0xFFFD#16
  · subst hedge
    exact lowField_beq dmacr 0b010#3
  · rw [causeOf_peripheral himm hlevel hedge, beq_false_of_ne hlevel, beq_false_of_ne hedge]
    rfl

/-! ### TRIG -/

section
variable {v : Half} {s : State} (h : s.halted = false)
include h

theorem exec_trig : exec (.trig v) s = finish ((attemptStart .ch0 (causeOf v) s).bind fun r0 t =>
    (attemptStart .ch1 (causeOf v) t).bind fun r1 t' => .ret (.bit (r0 || r1)) t') :=
  gated_running s _ h

theorem exec_trig_faults_ch0 (h0 : faultsOnAttempt s.ch0 = true) :
    exec (.trig v) s = .next (raiseFatal .blockModeStartTest s) := by
  rw [exec_trig h, attemptStart_fatal .ch0 _ s h0]
  rfl

/-- The attempt on channel 1 finds its channel as it was. -/
theorem exec_trig_faults_ch1 (h0 : faultsOnAttempt s.ch0 = false) (h1 : faultsOnAttempt s.ch1 = true) :
    exec (.trig v) s = .next (raiseFatal .blockModeStartTest (afterAttempt .ch0 (causeOf v) s)) := by
  have hch1 : (afterAttempt .ch0 (causeOf v) s).chan .ch1 = s.ch1 := chan_afterAttempt_other .ch0 _ s
  rw [exec_trig h, attemptStart_of_not_faults (c := .ch0) _ h0, Proc.bind_ret, attemptStart_fatal .ch1 _ _ (by rw [hch1, h1])]
  rfl

theorem exec_trig_completes (h0 : faultsOnAttempt s.ch0 = false) (h1 : faultsOnAttempt s.ch1 = false) :
    exec (.trig v) s = .next (answered
      (.bit (attemptAnswer (causeOf v) s.ch0 || attemptAnswer (causeOf v) s.ch1))
      (afterAttempt .ch1 (causeOf v) (afterAttempt .ch0 (causeOf v) s))) := by
  have hch1 : (afterAttempt .ch0 (causeOf v) s).chan .ch1 = s.ch1 := chan_afterAttempt_other .ch0 _ s
  rw [exec_trig h, attemptStart_of_not_faults (c := .ch0) _ h0, Proc.bind_ret, attemptStart_of_not_faults _ (by rw [hch1, h1]),
    Proc.bind_ret, hch1, finish_answered]
  rfl

end

theorem exec_trig_immediate {s : State} (h : s.halted = false) (h0 : faultsOnAttempt s.ch0 = false)
    (h1 : faultsOnAttempt s.ch1 = false) :
    exec (.trig 0xFFFF#16) s = .next (answered
      (.bit (startsOnImmediate s.ch0 .subA || startsOnImmediate s.ch0 .subB ||
        (startsOnImmediate s.ch1 .subA || startsOnImmediate s.ch1 .subB)))
      (afterImmediate .ch1 (afterImmediate .ch0 s))) := by
  rw [exec_trig_completes h h0 h1, (causeOf_eq_immediate_iff _).mpr rfl]
  rfl

/-- Settles O30: `IMM` is the Immediate, and both attempts arm their channels. -/
theorem triggerImmediateStarts : Obligations.TriggerImmediateStarts :=
  ⟨encodes_trig, fun _ h h0 h1 => ⟨_, exec_trig_immediate h h0 h1, rfl, rfl, rfl, rfl, rfl, rfl,
    sameController_trans (sameController_afterImmediate .ch0 _) (sameController_afterImmediate .ch1 _)⟩⟩

/-- The two attempts of a vector that is no Immediate. -/
theorem exec_trig_request {v : Half} {s : State} (h : s.halted = false) (h0 : faultsOnAttempt s.ch0 = false)
    (h1 : faultsOnAttempt s.ch1 = false) (hv : v ≠ 0xFFFF#16) :
    exec (.trig v) s = .next (answered (.bit (heeds (causeOf v) s.ch0 || heeds (causeOf v) s.ch1))
      { s with ch0 := requested (causeOf v) s.ch0, ch1 := requested (causeOf v) s.ch1 }) := by
  have hcause := mt (causeOf_eq_immediate_iff v).mp hv
  rw [exec_trig_completes h h0 h1, attemptAnswer, attemptAnswer, afterAttempt, afterAttempt, if_neg hcause, if_neg hcause,
    if_neg hcause, if_neg hcause]
  rfl

/-- Settles O31: the vector fixes the code that `requestMatches` compares. -/
theorem triggerRequestUnsuspends : Obligations.TriggerRequestUnsuspends := by
  intro v code s h h0 h1 hv
  have himm : v ≠ 0xFFFF#16 := by obtain ⟨rfl, -⟩ | ⟨rfl, -⟩ := hv <;> decide
  have hheeds (ch : Channel) : heeds (causeOf v) ch = (listens ch && ch.dmacr.toNat % 8 == code) := by
    rw [heeds, requestMatches_causeOf]
    obtain ⟨rfl, rfl⟩ | ⟨rfl, rfl⟩ := hv <;> simp
  rw [exec_trig_request h h0 h1 himm, requested, requested, hheeds, hheeds]

/-- Settles O32: no code matches a vector that names no request. -/
theorem peripheralVectorsDoNothing : Obligations.PeripheralVectorsDoNothing := by
  intro v s h h0 h1 himm hlevel hedge
  rw [ne_eq, toInt_eq_neg_one_iff] at himm
  rw [ne_eq, toInt_eq_neg_two_iff] at hlevel
  rw [ne_eq, toInt_eq_neg_three_iff] at hedge
  have hheeds (ch : Channel) : heeds (causeOf v) ch = false := by
    rw [heeds, causeOf_peripheral himm hlevel hedge]
    exact Bool.and_false _
  rw [exec_trig_request h h0 h1 himm, requested, requested, hheeds, hheeds]
  rfl

/-- Settles O33: the first attempt that is fatal ends the transaction, and what channel 0's attempt did stands. -/
theorem triggerFatal : Obligations.TriggerFatal := by
  refine fun v s h => ⟨exec_trig_faults_ch0 h, fun h0 h1 => ?_⟩
  have ht := exec_trig_faults_ch1 (v := v) h h0 h1
  by_cases hv : v = 0xFFFF#16
  · subst hv
    rw [(causeOf_eq_immediate_iff _).mpr rfl] at ht
    exact ⟨_, ht, rfl, rfl, rfl, rfl, sameLines_afterImmediate .ch0 s, fun _ => ⟨rfl, rfl, rfl⟩, fun hne => absurd rfl hne⟩
  · rw [afterAttempt, if_neg (mt (causeOf_eq_immediate_iff v).mp hv), requested, heeds, requestMatches_causeOf] at ht
    exact ⟨_, ht, rfl, rfl, rfl, rfl, ⟨rfl, rfl, rfl, rfl, rfl⟩, fun himm => absurd himm hv, fun _ => ⟨rfl, rfl, rfl⟩⟩

/-! ### DREQ -/

theorem lineChan_lineOperand (c : Chan) : lineChan (lineOperand c) = some c := by
  cases c <;> rfl

section
variable {c : Chan} {s : State} (h : s.halted = false)
include h

theorem exec_dreq_line (a : Bool) :
    exec (.dreq (lineOperand c) a) s = finish
      ((if a then reportAsserted c s else .ret () s).bind fun _ t => .ret .none (t.setDreqPrev c a)) := by
  rw [exec_dreq_supported a s (lineChan_lineOperand c), gated_running s _ h]

end

/-- Settles O35: a cleared line makes no attempt (R105). -/
theorem lineClearedIsRecorded : Obligations.LineClearedIsRecorded := fun _ _ h => exec_dreq_line h false

/-- Settles O37: the first attempt is fatal, so the level is not recorded (R202). -/
theorem lineFatalRecordsNothing : Obligations.LineFatalRecordsNothing := by
  intro c s h hfaults
  rw [exec_dreq_line h true, if_pos rfl, reportAsserted, attemptStart_fatal c .level s hfaults]
  rfl

theorem lifted_lifted (ch : Channel) : lifted (lifted ch) = lifted ch := by
  have hlistener : listener (lifted ch) = listener ch := rfl
  rw [lifted, hlistener, lifted, Channel.sub_setSub_same, Channel.setSub_setSub]

theorem requested_requested (v w : StartCause) (ch : Channel) :
    requested w (requested v ch) = if heeds v ch || heeds w ch then lifted ch else ch := by
  have hlifted : heeds w (lifted ch) = heeds w ch := rfl
  unfold requested
  cases hv : heeds v ch <;> cases hw : heeds w ch <;> simp [hlifted, hw, lifted_lifted]

theorem faultsOnAttempt_requested (v : StartCause) (ch : Channel) :
    faultsOnAttempt (requested v ch) = faultsOnAttempt ch := by
  unfold requested
  split <;> rfl

/-- The report of an asserted line: the level request always, the edge request on a rise (R105). -/
theorem reportAsserted_eq {c : Chan} {s : State} (hfaults : faultsOnAttempt (s.chan c) = false) :
    reportAsserted c s = .ret () (s.setChan c
      (if heeds .level (s.chan c) || (!s.dreqPrev c && heeds .edge (s.chan c)) then lifted (s.chan c) else s.chan c)) := by
  have hlevel : afterAttempt c .level s = s.setChan c (requested .level (s.chan c)) := rfl
  rw [reportAsserted, attemptStart_of_not_faults .level hfaults, hlevel, Proc.bind_ret]
  cases hprev : s.dreqPrev c
  · have hedge (t : State) : afterAttempt c .edge t = t.setChan c (requested .edge (t.chan c)) := rfl
    rw [if_neg Bool.false_ne_true, attemptStart_of_not_faults .edge
      (by rw [State.chan_setChan_same, faultsOnAttempt_requested, hfaults]), hedge, State.chan_setChan_same,
      State.setChan_setChan, requested_requested, Proc.bind_ret]
    rfl
  · simp [requested]

/-- Settles O36: the two requests name the two codes. -/
theorem lineAssertedUnsuspends : Obligations.LineAssertedUnsuspends := by
  refine ⟨encodes_dreq, fun c s h hfaults => ?_⟩
  have hlevel : heeds .level (s.chan c) = (listens (s.chan c) && (s.dmacr c).toNat % 8 == 0b011) :=
    congrArg (listens (s.chan c) && ·) (lowField_beq (s.dmacr c) 0b011#3)
  have hedge : heeds .edge (s.chan c) = (listens (s.chan c) && (s.dmacr c).toNat % 8 == 0b010) :=
    congrArg (listens (s.chan c) && ·) (lowField_beq (s.dmacr c) 0b010#3)
  have hcond : ∀ l x p y : Bool, (l && x || !p && (l && y)) = (l && (x || !p && y)) := by decide
  rw [exec_dreq_line h true, if_pos rfl, reportAsserted_eq hfaults, hlevel, hedge, hcond, apply_ite (s.setChan c),
    State.setChan_chan_self]
  rfl

end Sys2Proof.Machine
end

section
/-! WR.DMABCR channel by channel (40_controller.md R101; 60_exceptions.md R202), and the counts of a start
(43_start_protocol.md R182). -/

namespace Sys2Proof.Machine

open Sys2Proof.Safety Sys2Proof.Claims

/-! ### WR.DMABCR -/

/-- The state in which WR.DMABCR attempts a start on channel 0: the word merged, channel 0's flags derived. -/
def derivedCh0 (d m : Half) (s : State) : State := deriveFlags .ch0 { s with dmabcr := mergedWord s d m }

/-- The state in which it attempts one on channel 1, channel 0's attempt done. -/
def derivedCh1 (d m : Half) (s : State) : State := deriveFlags .ch1 (afterImmediate .ch0 (derivedCh0 d m s))

section
variable {d m : Half} {s : State}

theorem sameController_derivedCh0 : sameController s (derivedCh0 d m s) := ⟨⟨rfl, rfl, rfl, rfl, rfl⟩, rfl⟩

theorem sameController_derivedCh1 : sameController s (derivedCh1 d m s) :=
  sameController_trans sameController_derivedCh0 (sameController_afterImmediate .ch0 (derivedCh0 d m s))

variable (h : s.halted = false)
include h

theorem exec_wrDmabcr : exec (.wrDmabcr d m) s = finish
    ((attemptStart .ch0 .immediate (derivedCh0 d m s)).bind fun _ t =>
      (attemptStart .ch1 .immediate (deriveFlags .ch1 t)).bind fun _ t' => .ret .none t') :=
  gated_running s _ h

theorem exec_wrDmabcr_faults_ch0 (h0 : faultsOnAttempt (rederived .ch0 (mergedWord s d m) s) = true) :
    exec (.wrDmabcr d m) s = .next (raiseFatal .blockModeStartTest (derivedCh0 d m s)) := by
  rw [exec_wrDmabcr h, attemptStart_fatal .ch0 .immediate (derivedCh0 d m s) h0]
  rfl

variable (h0 : faultsOnAttempt (rederived .ch0 (mergedWord s d m) s) = false)
include h0

theorem exec_wrDmabcr_faults_ch1 (h1 : faultsOnAttempt (rederived .ch1 (mergedWord s d m) s) = true) :
    exec (.wrDmabcr d m) s = .next (raiseFatal .blockModeStartTest (derivedCh1 d m s)) := by
  rw [exec_wrDmabcr h, attemptStart_immediate .ch0 (derivedCh0 d m s) h0, Proc.bind_ret]
  exact congrArg (fun p => finish (p.bind fun _ t' => .ret .none t')) (attemptStart_fatal .ch1 .immediate (derivedCh1 d m s) h1)

theorem exec_wrDmabcr_completes (h1 : faultsOnAttempt (rederived .ch1 (mergedWord s d m) s) = false) :
    exec (.wrDmabcr d m) s = .next (answered .none (afterImmediate .ch1 (derivedCh1 d m s))) := by
  rw [exec_wrDmabcr h, attemptStart_immediate .ch0 (derivedCh0 d m s) h0, Proc.bind_ret]
  exact congrArg (fun p => finish (p.bind fun _ t' => .ret .none t')) (attemptStart_immediate .ch1 (derivedCh1 d m s) h1)

end

/-- Settles O22: both attempts arm their channels, each with the flags just derived. -/
theorem blockControlWriteStarts : Obligations.BlockControlWriteStarts := by
  refine ⟨encodes_wrDmabcr, fun d m s h h0 h1 => ⟨_, exec_wrDmabcr_completes h h0 h1, rfl, rfl, fun c => ?_, rfl, rfl,
    sameController_trans sameController_derivedCh1 (sameController_afterImmediate .ch1 (derivedCh1 d m s))⟩⟩
  cases c <;> rfl

/-- Settles O24: the first attempt that is fatal ends the transaction, and what was written before it stands. -/
theorem blockControlWriteFatal : Obligations.BlockControlWriteFatal := by
  refine fun d m s h => ⟨fun h0 => ⟨_, exec_wrDmabcr_faults_ch0 h h0, ?_⟩, fun h0 h1 =>
    ⟨_, exec_wrDmabcr_faults_ch1 h h0 h1, ?_⟩⟩
  · obtain ⟨hlines, -⟩ := sameController_derivedCh0 (d := d) (m := m) (s := s)
    exact ⟨rfl, rfl, rfl, rfl, rfl, rfl, rfl, hlines⟩
  · obtain ⟨hlines, -⟩ := sameController_derivedCh1 (d := d) (m := m) (s := s)
    exact ⟨rfl, rfl, rfl, rfl, rfl, rfl, rfl, hlines⟩

/-- The three ends of WR.DMABCR. -/
theorem exec_wrDmabcr_next {d m : Half} {s t : State} (ht : exec (.wrDmabcr d m) s = .next t) :
    t = raiseFatal .blockModeStartTest (derivedCh0 d m s) ∨ t = raiseFatal .blockModeStartTest (derivedCh1 d m s) ∨
      t = answered .none (afterImmediate .ch1 (derivedCh1 d m s)) := by
  obtain ⟨h, -⟩ := gated_next s t _ ht
  cases h0 : faultsOnAttempt (rederived .ch0 (mergedWord s d m) s)
  case true => exact .inl (Host.Outcome.next.inj (ht.symm.trans (exec_wrDmabcr_faults_ch0 h h0)))
  case false =>
    cases h1 : faultsOnAttempt (rederived .ch1 (mergedWord s d m) s)
    case true => exact .inr (.inl (Host.Outcome.next.inj (ht.symm.trans (exec_wrDmabcr_faults_ch1 h h0 h1))))
    case false => exact .inr (.inr (Host.Outcome.next.inj (ht.symm.trans (exec_wrDmabcr_completes h h0 h1))))

theorem flagBit_extractLsb' (w : Half) (k : Nat) (u : Sub) : flagBit (w.extractLsb' k 2) u = w.getLsbD (k + u.toNat) := by
  have hu : u.toNat < 2 := by cases u <;> decide
  simp [flagBit, hu]

/-- Settles O23: every end holds the merged word, and the one that is not fatal armed channels whose flags are its slices. -/
theorem flagsFollowTheBlockControlWord : Obligations.FlagsFollowTheBlockControlWord := by
  intro d m s t ht
  have hbits (k : Nat) : (mergedWord s d m).getLsbD k = if m.getLsbD k then d.getLsbD k else s.dmabcr.getLsbD k :=
    getLsbD_merge s.dmabcr d m k
  obtain rfl | rfl | rfl := exec_wrDmabcr_next ht
  · exact ⟨fun k _ => hbits k, nofun⟩
  · exact ⟨fun k _ => hbits k, nofun⟩
  · refine ⟨fun k _ => hbits k, fun _ c => ?_⟩
    cases c <;> exact ⟨rfl, rfl, fun u =>
      ⟨flagBit_extractLsb' _ _ u, flagBit_extractLsb' _ _ u, flagBit_extractLsb' _ _ u⟩⟩

/-! ### Counts -/

theorem unitCount_bounds (e : Half) :
    1 ≤ unitCount e ∧ unitCount e ≤ 0x10000 ∧ unitCount e % 0x10000 = e.toNat := by
  have he := e.isLt
  unfold unitCount
  split <;> omega

theorem byteCount_bounds (e : Nat) :
    1 ≤ (if e % 0x100 = 0 then 0x100 else e % 0x100) ∧ (if e % 0x100 = 0 then 0x100 else e % 0x100) ≤ 0x100 ∧
      (if e % 0x100 = 0 then 0x100 else e % 0x100) % 0x100 = e % 0x100 := by
  split <;> omega

/-- Settles O28: a start hands over `fullTransfer` or `shortTransfer`, whose count is 16 or 8 bits of the count register,
with 0 read as the full range. -/
theorem countsAtHandoff : Obligations.CountsAtHandoff := by
  intro c u s t ht
  cases hf : (s.chan c).fae
  case true =>
    cases hb : blockBit (s.chan c).dmacr
    case true => rw [start_full_block c u s hf hb] at ht; cases ht
    case false =>
      rw [start_full c u s hf hb] at ht
      cases ht
      have hcount : (fullTransfer (s.chan c) (s.ts c u)).count.toNat = unitCount (s.etcr c .subA) := toNat_count16 _
      obtain ⟨hpos, hmax, hmod⟩ := unitCount_bounds (s.etcr c .subA)
      rw [ts_handoff_setTs, hcount]
      exact ⟨hpos, hmax, fun _ => hmod, nofun, nofun⟩
  case false =>
    rw [start_short c u s hf] at ht
    cases ht
    have hcount : (shortTransfer (s.chan c) u (s.sub c u)).count.toNat =
        if isRepeat (s.chan c) u then
          (if (s.etcr c u).toNat % 0x100 = 0 then 0x100 else (s.etcr c u).toNat % 0x100)
        else unitCount (s.etcr c u) := toNat_shortCount _ u _
    rw [ts_handoff_setTs, hcount]
    cases isRepeat (s.chan c) u
    case true =>
      obtain ⟨hpos, hmax, hmod⟩ := byteCount_bounds (s.etcr c u).toNat
      rw [if_pos rfl]
      exact ⟨hpos, hmax.trans (by decide), nofun, nofun, fun _ _ => ⟨hmax, hmod⟩⟩
    case false =>
      obtain ⟨hpos, hmax, hmod⟩ := unitCount_bounds (s.etcr c u)
      rw [if_neg Bool.false_ne_true]
      exact ⟨hpos, hmax, nofun, fun _ _ => hmod, nofun⟩

end Sys2Proof.Machine
end

section
/-! The DTCR writes (42_legacy_translation.md R150 to R160): a write alone, a translation that starts what it enables, a
translation that is fatal, and translating twice. -/

namespace Sys2Proof.Machine

open Sys2Proof.Safety Sys2Proof.Claims

/-! ### A write to a DTCR register -/

section
variable {c : Chan} {u : Sub} {d : Byte} {s : State}

theorem exec_dtcrWrite (h : s.halted = false) : exec (dtcrWrite c u d) s = finish (writeDtcr c u d s) := by
  cases u <;> exact withFullMask_full s _ h

/-- Both legacy enable bits after the write: the one written and the other register's (R150). -/
theorem bothLegacyEnabled_setDtcr :
    bothLegacyEnabled c (s.setDtcr c u d) = (d.getLsbD 7 && (s.dtcr c u.other).getLsbD 7) := by
  cases u
  case subA => cases c <;> rfl
  case subB => cases c <;> exact Bool.and_comm _ _

theorem writeDtcr_alone (hb : bothLegacyEnabled c (s.setDtcr c u d) = false) :
    writeDtcr c u d s = .ret .none (s.setDtcr c u d) := by
  simp [writeDtcr, hb]

theorem writeDtcr_both (hb : bothLegacyEnabled c (s.setDtcr c u d) = true) :
    writeDtcr c u d s = (translateLegacy c (s.setDtcr c u d)).bind fun _ t' => .ret .none t' := by
  simp [writeDtcr, hb]

end

/-- Settles O39: without both enable bits the write is `setDtcr` alone, and the mask test comes before it. -/
theorem legacyWriteAloneOnlyStores : Obligations.LegacyWriteAloneOnlyStores := by
  refine fun c u d m s h => ⟨encodes_channelByteWrite (.wrDtcra c) (by decide) fun _ _ => rfl,
    encodes_channelByteWrite (.wrDtcrb c) (by decide) fun _ _ => rfl, fun hb => ?_, fun hm =>
    ⟨withFullMask_partial s (finish (writeDtcr c .subA d s)) h hm, withFullMask_partial s (finish (writeDtcr c .subB d s)) h hm⟩⟩
  rw [exec_dtcrWrite h, writeDtcr_alone (bothLegacyEnabled_setDtcr.trans hb), finish_answered]

/-! ### The translated channel -/

/-- A channel after the stores of a translation whose enable bits are both set (R151 to R158). -/
def translated (ch : Channel) (a b : Byte) : Channel :=
  { ch with
    dmacr := legacyDmacr a b, fae := legacyFull a, sae := !legacyFull a, dta := 0b00#2, dte := 0b11#2
    dtie := (if !legacyFull a && b.getLsbD 3 then 0b10#2 else 0b00#2) ||| (if a.getLsbD 3 then 0b01#2 else 0b00#2) }

theorem storeTranslation_chan_translated {c : Chan} {s : State} (ha : (s.dtcr c .subA).getLsbD 7 = true)
    (hb : (s.dtcr c .subB).getLsbD 7 = true) :
    (storeTranslation c s).chan c = translated (s.chan c) (s.dtcr c .subA) (s.dtcr c .subB) := by
  rw [storeTranslation_chan, Channel.withLegacyFlags, ha, hb, translated]
  cases legacyFull (s.dtcr c .subA) <;> cases (s.dtcr c .subA).getLsbD 3 <;> cases (s.dtcr c .subB).getLsbD 3 <;> rfl

/-- The pairs that describe block mode are those on which the attempt is fatal (R154, R156, R171). -/
theorem faultsOnAttempt_translated (ch : Channel) (a b : Byte) :
    faultsOnAttempt (translated ch a b) = (legacyFull a && a.getLsbD 0) := by
  obtain ⟨-, -, -, -, hfull⟩ := legacyControlWord a b
  cases hf : legacyFull a
  case false => simp [faultsOnAttempt, translated, hf]
  case true =>
    obtain ⟨hblock, -⟩ := hfull hf
    simp only [faultsOnAttempt, translated, hf, hblock, Bool.true_and]
    rfl

/-- A translation enables both submodules; in full-address mode A alone is started (R159, R171, R172). -/
theorem handoffsOf_translated (c : Chan) (ch : Channel) (a b : Byte) :
    handoffsOf c (translated ch a b) =
      if legacyFull a then [.handoff (packedId c .subA)] else [.handoff (packedId c .subB), .handoff (packedId c .subA)] := by
  cases hf : legacyFull a <;> simp [handoffsOf, startsOnImmediate, translated, hf]

theorem sameController_storeTranslation (c : Chan) (s : State) : sameController s (storeTranslation c s) :=
  ⟨⟨rfl, rfl, rfl, rfl, rfl⟩, rfl⟩

theorem sameController_setDtcr (c : Chan) (u : Sub) (d : Byte) (s : State) : sameController s (s.setDtcr c u d) :=
  ⟨⟨rfl, rfl, rfl, rfl, rfl⟩, rfl⟩

/-- A write to a DTCR register writes nothing else of its channel's submodules (R139, R145). -/
theorem setDtcr_registers (c : Chan) (u v : Sub) (d : Byte) (s : State) :
    (s.setDtcr c u d).ts c v = s.ts c v ∧ (s.setDtcr c u d).inflight c v = s.inflight c v ∧
    (s.setDtcr c u d).mar c v = s.mar c v ∧ (s.setDtcr c u d).ioar c v = s.ioar c v ∧
    (s.setDtcr c u d).etcr c v = s.etcr c v := by
  cases c <;> cases u <;> cases v <;> exact ⟨rfl, rfl, rfl, rfl, rfl⟩

/-! ### A write that translates -/

section
variable {c : Chan} {u : Sub} {d : Byte} {s : State} (h : s.halted = false)
  (ha : ((s.setDtcr c u d).dtcr c .subA).getLsbD 7 = true) (hb : ((s.setDtcr c u d).dtcr c .subB).getLsbD 7 = true)
include h ha hb

theorem exec_dtcrWrite_translates (hfaults : faultsOnAttempt ((storeTranslation c (s.setDtcr c u d)).chan c) = false) :
    exec (dtcrWrite c u d) s =
      .next (answered .none (afterImmediate c (storeTranslation c (s.setDtcr c u d)))) := by
  have hboth : bothLegacyEnabled c (s.setDtcr c u d) = true := by rw [bothLegacyEnabled, ha, hb]; rfl
  rw [exec_dtcrWrite h, writeDtcr_both hboth, translateLegacy, attemptStart_immediate c _ hfaults, Proc.bind_ret,
    finish_answered]

theorem exec_dtcrWrite_faults (hfaults : faultsOnAttempt ((storeTranslation c (s.setDtcr c u d)).chan c) = true) :
    exec (dtcrWrite c u d) s = .next (raiseFatal .blockModeStartTest (storeTranslation c (s.setDtcr c u d))) := by
  have hboth : bothLegacyEnabled c (s.setDtcr c u d) = true := by rw [bothLegacyEnabled, ha, hb]; rfl
  rw [exec_dtcrWrite h, writeDtcr_both hboth, translateLegacy, attemptStart_fatal c .immediate _ hfaults]
  rfl

end

/-- The other channel under the write and the stores of the translation. -/
theorem chan_other_storeTranslation_setDtcr (c : Chan) (u : Sub) (d : Byte) (s : State) :
    (storeTranslation c (s.setDtcr c u d)).chan c.other = s.chan c.other := by
  rw [storeTranslation_chan_other, State.setDtcr, State.setSub, State.chan_setChan_other]

/-- Settles O40: the channel translated does not fault, so the attempt arms it. -/
theorem legacyWriteTranslatesAndStarts : Obligations.LegacyWriteTranslatesAndStarts := by
  rintro c u d a b s h rfl rfl ha hb hblock
  have hchan := storeTranslation_chan_translated ha hb
  have ht := exec_dtcrWrite_translates h ha hb (by rw [hchan, faultsOnAttempt_translated, hblock])
  refine ⟨_, translated _ _ _, ht, rfl, rfl, ?_, ?_, rfl, ?_, ?_, ?_⟩
  · rw [chan_answered, chan_afterImmediate, hchan]
  · rw [chan_answered, chan_other_afterImmediate, chan_other_storeTranslation_setDtcr]
  · rw [← handoffsOf_translated, ← hchan]
    rfl
  · rw [← hchan]
    rfl
  · exact sameController_trans (sameController_trans (sameController_setDtcr c u d s) (sameController_storeTranslation c _))
      (sameController_afterImmediate c _)

/-- Settles O41: the attempt is fatal after the stores, which touch no submodule but for the register written. -/
theorem legacyBlockModeIsFatal : Obligations.LegacyBlockModeIsFatal := by
  rintro c u d a b s h rfl rfl ha hb hblock
  have hchan := storeTranslation_chan_translated ha hb
  have ht := exec_dtcrWrite_faults h ha hb (by rw [hchan, faultsOnAttempt_translated, hblock])
  obtain ⟨hlines, -⟩ := sameController_trans (sameController_setDtcr c u d s) (sameController_storeTranslation c _)
  obtain ⟨hfull, -⟩ := Bool.and_eq_true_iff.mp hblock
  have hsub (v : Sub) : (raiseFatal .blockModeStartTest (storeTranslation c (s.setDtcr c u d))).sub c v =
      (s.setDtcr c u d).sub c v := by rw [State.sub_raiseFatal, storeTranslation_sub]
  refine ⟨_, ht, rfl, rfl, rfl, ?_, congrArg Submodule.dtcr (hsub .subA), congrArg Submodule.dtcr (hsub .subB), fun v => ?_,
    ?_, ?_, rfl, rfl, hlines⟩
  · rw [State.chan_raiseFatal, hchan]
    simp [translated, hfull]
  · obtain ⟨hts, hfl, hmar, hioar, hetcr⟩ := setDtcr_registers c u v d s
    exact ⟨(congrArg Submodule.ts (hsub v)).trans hts, (congrArg Submodule.inflight (hsub v)).trans hfl,
      (congrArg Submodule.mar (hsub v)).trans hmar, (congrArg Submodule.ioar (hsub v)).trans hioar,
      (congrArg Submodule.etcr (hsub v)).trans hetcr⟩
  · rw [State.chan_raiseFatal, hchan]
    cases c <;> rfl
  · rw [State.chan_raiseFatal, chan_other_storeTranslation_setDtcr]

/-! ### Translating twice -/

/-- A translation and the start it makes leave all registers of the submodules (R160). -/
theorem registers_afterImmediate_storeTranslation (c : Chan) (u : Sub) (s : State) :
    (afterImmediate c (storeTranslation c s)).mar c u = s.mar c u ∧
    (afterImmediate c (storeTranslation c s)).ioar c u = s.ioar c u ∧
    (afterImmediate c (storeTranslation c s)).etcr c u = s.etcr c u ∧
    (afterImmediate c (storeTranslation c s)).dtcr c u = s.dtcr c u := by
  have hsub := sub_afterImmediate c u (storeTranslation c s)
  have hregisters := armedSub_registers ((storeTranslation c s).chan c) u
  have hstored : ((storeTranslation c s).chan c).sub u = s.sub c u := storeTranslation_sub c c u s
  rwa [← hsub, hstored] at hregisters

theorem storeTranslation_eq_self {c : Chan} {t : State}
    (h : { (t.chan c).withLegacyFlags (t.dtcr c .subA) (t.dtcr c .subB) with
      dmacr := legacyDmacr (t.dtcr c .subA) (t.dtcr c .subB) } = t.chan c) : storeTranslation c t = t :=
  (congrArg (t.setChan c) h).trans (State.setChan_chan_self t c)

/-- The stores of a second translation write what is there. -/
theorem storeTranslation_afterImmediate (c : Chan) (s : State) :
    storeTranslation c (afterImmediate c (storeTranslation c s)) = afterImmediate c (storeTranslation c s) := by
  obtain ⟨-, -, -, hA⟩ := registers_afterImmediate_storeTranslation c .subA s
  obtain ⟨-, -, -, hB⟩ := registers_afterImmediate_storeTranslation c .subB s
  apply storeTranslation_eq_self
  rw [hA, hB, chan_afterImmediate, storeTranslation_chan]
  rfl

/-- Settles O42: what a translation writes is read from the legacy registers, which the start it makes does not touch. -/
theorem legacyTranslationIsIdempotent : Obligations.LegacyTranslationIsIdempotent := by
  intro c s t r ht
  cases hfaults : faultsOnAttempt ((storeTranslation c s).chan c)
  case true =>
    rw [translateLegacy, attemptStart_fatal c .immediate _ hfaults] at ht
    cases ht
  case false =>
    rw [translateLegacy, attemptStart_immediate c _ hfaults] at ht
    obtain ⟨-, rfl⟩ := Proc.ret.inj ht
    refine ⟨storeTranslation_afterImmediate c s, rfl, ?_, fun u => ?_⟩
    · rw [chan_other_afterImmediate, storeTranslation_chan_other]
    · obtain ⟨hmar, hioar, hetcr, -⟩ := registers_afterImmediate_storeTranslation c u s
      exact ⟨hmar, hioar, hetcr⟩

end Sys2Proof.Machine
end

section
/-! DONE on a full-address channel (44_completion.md R191, R192), the two completion laws (R196), and which transactions
put submodule B in flight (43_start_protocol.md R171, R172). -/

namespace Sys2Proof.Machine

open Sys2Proof.Safety Sys2Proof.Claims

/-! ### What the prologue and a one-shot completion leave of a submodule -/

theorem sub_other_endTransfer (c : Chan) (u : Sub) (s : State) : (endTransfer c u s).sub c u.other = s.sub c u.other := by
  rw [State.sub, chan_endTransfer, Channel.sub_setSub_other]
  cases u <;> rfl

/-- The prologue clears one in-flight bit and leaves all registers (R191). -/
theorem endTransfer_registers (c : Chan) (u v : Sub) (s : State) :
    ∃ b, (endTransfer c u s).sub c v = { s.sub c v with inflight := b } := by
  obtain rfl | rfl := Sub.eq_or_eq_other u v
  · exact ⟨false, sub_endTransfer c v s⟩
  · exact ⟨(s.sub c u.other).inflight, sub_other_endTransfer c u s⟩

section
variable (c : Chan) (e u v : Sub) (s : State)

theorem sub_retire :
    (retire c e u s).sub c v = if e = v then { s.sub c e with dtcr := clearBit (s.dtcr c e) 7 } else s.sub c v := by
  rw [State.sub, retire_chan, Channel.sub_setSub]
  cases v <;> rfl

/-- A one-shot completion clears one legacy enable bit and leaves the other registers (R192, R194). -/
theorem retire_registers : ∃ b, (retire c e u s).sub c v = { s.sub c v with dtcr := b } := by
  rw [sub_retire]
  split
  case isTrue hev => subst hev; exact ⟨_, rfl⟩
  case isFalse => exact ⟨_, rfl⟩

end

/-! ### DONE on a full-address channel -/

section
variable {c : Chan} {u : Sub} {s : State}

theorem transferDone_full (hfull : (s.chan c).fae = true) (hblock : blockBit (s.chan c).dmacr = false) :
    transferDone c u s = .ret () (retire c .subA u (endTransfer c u s)) := by
  rw [transferDone_cases, hfull, hblock]
  rfl

theorem transferDone_block (hfull : (s.chan c).fae = true) (hblock : blockBit (s.chan c).dmacr = true) :
    transferDone c u s = .fatal (raiseFatal .blockModeDone (endTransfer c u s)) := by
  rw [transferDone_cases, hfull, hblock]
  rfl

theorem exec_done_of_fatal {t : State} (h : s.halted = false) (hfatal : transferDone c u s = .fatal t) :
    exec (.done (idOperand c u)) s = .next t := by
  rw [exec_done, withId_inRange s _ h (idOperand_toNat_lt c u), idField_idOperand, idChan_packedId, idSub_packedId, hfatal,
    Proc.bind_fatal, finish_fatal]

end

/-- Settles O47: the fatal comes after the prologue, which writes the end line and the in-flight bit. -/
theorem blockModeCompletionIsFatal : Obligations.BlockModeCompletionIsFatal := by
  intro c u s h hfull hblock
  have hchan := (State.chan_raiseFatal (endTransfer c u s) c .blockModeDone).trans (chan_endTransfer c u s)
  have hown := sub_of_completed hchan
  have hother := sub_other_of_completed hchan
  have hout := out_endTransfer c u s
  obtain ⟨hlines, -⟩ := sameController_endTransfer c u s
  exact ⟨_, exec_done_of_fatal h (transferDone_block hfull hblock), rfl, rfl, by rw [raiseFatal_out, hout],
    congrArg Submodule.inflight hown, tend_of_completed hchan, congrArg Submodule.inflight hother,
    forall_sub_of_completed hchan Submodule.ts rfl, rfl, dte_of_completed hchan, rfl,
    forall_sub_of_completed hchan Submodule.dtcr rfl, sameRegisters_of_completed hchan rfl rfl rfl,
    (State.chan_raiseFatal _ _ _).trans (chan_other_endTransfer c u s), hlines⟩

section
variable (c : Chan) (e u v : Sub) (s : State)

/-- A completion of submodule `u` that retires `e` leaves the TransferStates and the address and count registers (R197). -/
theorem retire_endTransfer_registers :
    (retire c e u (endTransfer c u s)).ts c v = s.ts c v ∧ (retire c e u (endTransfer c u s)).mar c v = s.mar c v ∧
    (retire c e u (endTransfer c u s)).ioar c v = s.ioar c v ∧ (retire c e u (endTransfer c u s)).etcr c v = s.etcr c v := by
  obtain ⟨b, hretire⟩ := retire_registers c e u v (endTransfer c u s)
  obtain ⟨i, hend⟩ := endTransfer_registers c u v s
  rw [State.ts, State.mar, State.ioar, State.etcr, hretire, hend]
  exact ⟨rfl, rfl, rfl, rfl⟩

theorem inflight_retire : (retire c e u s).inflight c v = s.inflight c v := by
  obtain ⟨b, hretire⟩ := retire_registers c e u v s
  rw [State.inflight, hretire]
  rfl

theorem dtcr_endTransfer : (endTransfer c u s).dtcr c v = s.dtcr c v := by
  obtain ⟨i, hend⟩ := endTransfer_registers c u v s
  rw [State.dtcr, hend]
  rfl

theorem dtcr_retire : (retire c e u s).dtcr c v = if e = v then clearBit (s.dtcr c v) 7 else s.dtcr c v := by
  rw [State.dtcr, sub_retire]
  split
  case isTrue hev => subst hev; rfl
  case isFalse => rfl

/-- The fields of the channel beside its submodules: the enable bits and the end line change (R191, R192, R194). -/
theorem chan_retire_endTransfer_fields :
    ((retire c e u (endTransfer c u s)).chan c).fae = (s.chan c).fae ∧
    ((retire c e u (endTransfer c u s)).chan c).sae = (s.chan c).sae ∧
    ((retire c e u (endTransfer c u s)).chan c).dta = (s.chan c).dta ∧
    ((retire c e u (endTransfer c u s)).chan c).dtie = (s.chan c).dtie ∧
    ((retire c e u (endTransfer c u s)).chan c).dmacr = (s.chan c).dmacr ∧
    ((retire c e u (endTransfer c u s)).chan c).tend = ((s.ts c u).autoreq && (s.chan c).tend) ∧
    ((retire c e u (endTransfer c u s)).chan c).dte = clearBit (s.dte c) e.toNat := by
  rw [retire_chan, State.dte, chan_endTransfer]
  exact ⟨rfl, rfl, rfl, rfl, rfl, rfl, rfl⟩

end

/-- Settles O44: the completion is `retire` of submodule 0's bits after the prologue of the notified submodule. -/
theorem fullAddressCompletion : Obligations.FullAddressCompletion := by
  refine ⟨encodes_done, fun c u s h hfull hblock => ?_⟩
  have hregs (v : Sub) := retire_endTransfer_registers c .subA u v s
  obtain ⟨hfae, hsae, hdta, hdtie, hdmacr, htend, hdte⟩ := chan_retire_endTransfer_fields c .subA u s
  obtain ⟨hchanOther, hdmabcr, hout, hhazard, hhalted, hdmawer, hprev0, hprev1, hinbox, hresets⟩ :=
    retire_rest c .subA u (endTransfer c u s)
  have hirq : ((endTransfer c u s).chan c).dtie = (s.chan c).dtie := by rw [chan_endTransfer]; rfl
  have hflight (v : Sub) := inflight_retire c .subA u v (endTransfer c u s)
  have hdtcr (v : Sub) := dtcr_retire c .subA u v (endTransfer c u s)
  rw [hirq, out_endTransfer] at hout
  refine ⟨_, exec_done_of_ret h (transferDone_full (u := u) hfull hblock), rfl, ?dteOwn, ?dteOther, ?dmabcr, ?dtcrA, ?dtcrB,
    ?ended, ?otherFlight, ?tend, hout, ?ts, hhazard, ?registers, ?chanOther,
    ⟨⟨hdmawer, hprev0, hprev1, hinbox, hresets⟩, hhalted⟩⟩
  case dteOwn => rw [State.dte, chan_answered, hdte, flagBit_clearBit]; exact Bool.and_false _
  case dteOther => rw [State.dte, chan_answered, hdte, flagBit_clearBit]; exact Bool.and_true _
  case dmabcr =>
    intro k _
    refine (congrArg (BitVec.getLsbD · k) hdmabcr).trans ?_
    rw [getLsbD_clearBit, packedId_toNat]
    rfl
  case dtcrA =>
    intro k _
    rw [State.dtcr, sub_answered, ← State.dtcr, hdtcr, if_pos rfl, getLsbD_clearBit, dtcr_endTransfer]
  case dtcrB => rw [State.dtcr, sub_answered, ← State.dtcr, hdtcr, if_neg Sub.noConfusion, dtcr_endTransfer]
  case ended => rw [State.inflight, sub_answered, ← State.inflight, hflight, State.inflight, sub_endTransfer]
  case otherFlight =>
    rw [State.inflight, sub_answered, ← State.inflight, hflight, State.inflight, sub_other_endTransfer, State.inflight]
  case tend => rw [chan_answered, htend]
  case ts =>
    intro v
    obtain ⟨hts, -⟩ := hregs v
    rw [State.ts, sub_answered, ← State.ts, hts]
  case registers =>
    rw [sameRegisters, chan_answered]
    refine ⟨hfae, hsae, hdta, hdtie, hdmacr, fun v => ?_⟩
    obtain ⟨-, hmar, hioar, hetcr⟩ := hregs v
    rw [State.mar, State.ioar, State.etcr, sub_answered]
    exact ⟨hmar, hioar, hetcr⟩
  case chanOther => rw [chan_answered, hchanOther, chan_other_endTransfer]

/-! ### The two completion laws -/

/-- An end signal is no interrupt (R191). -/
theorem count_irq_endEvents (c : Chan) (u : Sub) (s : State) (n : Nat) : (endEvents c u s).count (.irq n) = 0 := by
  rw [endEvents]
  split <;> rfl

/-- Settles O48: the two laws are what the repeat-mode and the one-shot completion say of the enable bit, the
count and the interrupt. -/
theorem repeatAndOneShotLaws : Obligations.RepeatAndOneShotLaws := by
  intro c u s t ht hshort
  obtain ⟨h, -⟩ := withId_next s t _ _ ((exec_done (idOperand c u) s).symm.trans ht)
  refine ⟨fun hrepeat => ?repeats, fun hrepeat => ?oneShot⟩
  case repeats =>
    obtain ⟨t', hexec, -, hts, -, -, -, hdte, -⟩ := repeatModeCompletionReloads c u s h hshort hrepeat
    obtain rfl := Host.Outcome.next.inj (ht.symm.trans hexec)
    refine ⟨by rw [hdte], ?_⟩
    have hsubmode : ((slice (s.chan c).dmacr u).getLsbD 5 && !flagBit (s.chan c).dta u) = true := hrepeat
    rw [hts]
    exact (toNat_shortCount _ u _).trans (if_pos hsubmode)
  case oneShot =>
    obtain ⟨t', hexec, -, hdte, -, hdmabcr, -, -, -, -, -, hout, -⟩ := shortAddressOneShotCompletion c u s h hshort hrepeat
    obtain rfl := Host.Outcome.next.inj (ht.symm.trans hexec)
    have hbit : 4 + 2 * c.toNat + u.toNat < 16 := by cases c <;> cases u <;> decide
    refine ⟨hdte, by rw [hdmabcr _ hbit]; simp, fun hirq => ?_⟩
    rw [hout, if_pos hirq, List.append_assoc, List.drop_left, List.count_append, count_irq_endEvents,
      List.count_singleton_self]

/-! ### Which transactions put submodule B in flight -/

/-- Between a channel before and after a transaction: B, if newly in flight, was started in short-address mode. -/
def StartsBInShortMode (ch ch' : Channel) : Prop :=
  ch'.subB.inflight = true → ch.subB.inflight = true ∨ ch'.fae = false

theorem StartsBInShortMode.of_inflight {ch ch' : Channel} (h : ch'.subB.inflight = true → ch.subB.inflight = true) :
    StartsBInShortMode ch ch' := fun hheld => .inl (h hheld)

theorem StartsBInShortMode.of_eq {ch ch' : Channel} (h : ch' = ch) : StartsBInShortMode ch ch' := by
  subst h
  exact .of_inflight id

/-- An Immediate starts B in short-address mode alone (R171, R172). -/
theorem StartsBInShortMode.of_armed {ch ch' : Channel} (h : ch'.subB.inflight = ch.subB.inflight) :
    StartsBInShortMode ch (armed ch') := by
  intro hheld
  cases hstarts : startsOnImmediate ch' .subB
  case true =>
    rw [startsOnImmediate, Bool.and_eq_true, Bool.not_eq_true'] at hstarts
    exact .inr hstarts.1
  case false =>
    have hkept : (armed ch').subB = ch'.subB := if_neg (by rw [hstarts]; exact Bool.false_ne_true)
    rw [hkept, h] at hheld
    exact .inl hheld

theorem startsBInShortMode_afterAttempt (c : Chan) (v : StartCause) (s : State) :
    StartsBInShortMode (s.chan c) ((afterAttempt c v s).chan c) := by
  unfold afterAttempt
  split
  case isTrue =>
    rw [chan_afterImmediate]
    exact .of_armed rfl
  case isFalse =>
    rw [State.chan_setChan_same, requested]
    split
    case isTrue =>
      refine .of_inflight fun hheld => ?_
      rw [lifted] at hheld
      cases hl : listener (s.chan c) <;> rw [hl] at hheld <;> exact hheld
    case isFalse => exact .of_inflight id

theorem startsBInShortMode_wrDmabcr {d m : Half} {s t : State} (ht : exec (.wrDmabcr d m) s = .next t) (c : Chan) :
    StartsBInShortMode (s.chan c) (t.chan c) := by
  obtain rfl | rfl | rfl := exec_wrDmabcr_next ht
  all_goals cases c
  · exact .of_inflight id
  · exact .of_inflight id
  · exact .of_armed (ch' := (derivedCh0 d m s).ch0) rfl
  · exact .of_inflight id
  · exact .of_armed (ch' := (derivedCh0 d m s).ch0) rfl
  · exact .of_armed (ch' := (derivedCh1 d m s).ch1) rfl

theorem startsBInShortMode_trig {v : Half} {s t : State} (ht : exec (.trig v) s = .next t) (c : Chan) :
    StartsBInShortMode (s.chan c) (t.chan c) := by
  obtain ⟨h, -⟩ := gated_next s t _ ht
  have hch0 := startsBInShortMode_afterAttempt .ch0 (causeOf v) s
  have hch1 : (afterAttempt .ch0 (causeOf v) s).chan .ch1 = s.ch1 := chan_afterAttempt_other .ch0 _ s
  cases h0 : faultsOnAttempt s.ch0
  case true =>
    obtain rfl := Host.Outcome.next.inj (ht.symm.trans (exec_trig_faults_ch0 h h0))
    exact .of_eq (State.chan_raiseFatal s c _)
  case false =>
    cases h1 : faultsOnAttempt s.ch1
    case true =>
      obtain rfl := Host.Outcome.next.inj (ht.symm.trans (exec_trig_faults_ch1 h h0 h1))
      rw [State.chan_raiseFatal]
      cases c
      · exact hch0
      · exact .of_eq hch1
    case false =>
      obtain rfl := Host.Outcome.next.inj (ht.symm.trans (exec_trig_completes h h0 h1))
      rw [chan_answered]
      cases c
      · have hkept := chan_afterAttempt_other .ch1 (causeOf v) (afterAttempt .ch0 (causeOf v) s)
        exact Eq.mpr (congrArg (StartsBInShortMode _) hkept) hch0
      · have hsecond := startsBInShortMode_afterAttempt .ch1 (causeOf v) (afterAttempt .ch0 (causeOf v) s)
        rwa [hch1] at hsecond

/-- A translation starts a channel in flight as before the write to the legacy register. -/
theorem startsBInShortMode_writeDtcr {c d : Chan} {u : Sub} {x : Byte} {s t : State}
    (ht : finish (writeDtcr c u x s) = .next t) : StartsBInShortMode (s.chan d) (t.chan d) := by
  have hstored : ((s.setDtcr c u x).chan d).subB.inflight = (s.chan d).subB.inflight := by
    cases c <;> cases u <;> cases d <;> rfl
  cases hb : bothLegacyEnabled c (s.setDtcr c u x)
  case false =>
    rw [writeDtcr_alone hb, finish_answered] at ht
    obtain rfl := Host.Outcome.next.inj ht
    rw [chan_answered]
    exact .of_inflight fun h => hstored ▸ h
  case true =>
    have htranslated : ((storeTranslation c (s.setDtcr c u x)).chan d).subB.inflight = (s.chan d).subB.inflight :=
      (congrArg Submodule.inflight (storeTranslation_sub c d .subB (s.setDtcr c u x))).trans hstored
    rw [writeDtcr_both hb, translateLegacy, attemptStart_eq] at ht
    split at ht
    case isTrue =>
      obtain rfl := Host.Outcome.next.inj ht
      rw [State.chan_raiseFatal]
      exact .of_inflight fun h => htranslated ▸ h
    case isFalse =>
      rw [if_pos rfl] at ht
      obtain rfl := Host.Outcome.next.inj ht
      obtain rfl | rfl := Chan.eq_or_eq_other c d
      · have hchan := chan_afterImmediate d (storeTranslation d (s.setDtcr d u x))
        exact Eq.mpr (congrArg (StartsBInShortMode _) hchan) (.of_armed htranslated)
      · refine .of_inflight fun h => htranslated ▸ ?_
        exact (congrArg (·.subB.inflight) (chan_other_afterImmediate c (storeTranslation c (s.setDtcr c u x)))).symm.trans h

/-- The prologue of a completion puts nothing in flight. -/
theorem inflight_of_inflight_endTransfer {c d : Chan} {u : Sub} {s : State}
    (h : ((endTransfer c u s).chan d).subB.inflight = true) : (s.chan d).subB.inflight = true := by
  obtain rfl | rfl := Chan.eq_or_eq_other c d
  · rw [chan_endTransfer] at h
    cases u
    · exact h
    · exact absurd h Bool.false_ne_true
  · rwa [chan_other_endTransfer] at h

/-- Nor does a one-shot completion. -/
theorem inflight_of_inflight_retire {c d : Chan} {e u : Sub} {s : State}
    (h : ((retire c e u (endTransfer c u s)).chan d).subB.inflight = true) : (s.chan d).subB.inflight = true := by
  obtain rfl | rfl := Chan.eq_or_eq_other c d
  · exact inflight_of_inflight_endTransfer ((inflight_retire d e u .subB _).symm.trans h)
  · obtain ⟨hother, -⟩ := retire_rest c e u (endTransfer c u s)
    rw [hother] at h
    exact inflight_of_inflight_endTransfer h

theorem startsBInShortMode_done {c : Chan} {u : Sub} {s t : State} (ht : exec (.done (idOperand c u)) s = .next t)
    (d : Chan) : StartsBInShortMode (s.chan d) (t.chan d) := by
  obtain ⟨h, -⟩ := withId_next s t _ _ ((exec_done (idOperand c u) s).symm.trans ht)
  cases hfull : (s.chan c).fae
  case true =>
    cases hblock : blockBit (s.chan c).dmacr
    case true =>
      obtain rfl := Host.Outcome.next.inj (ht.symm.trans (exec_done_of_fatal h (transferDone_block (u := u) hfull hblock)))
      rw [State.chan_raiseFatal]
      exact .of_inflight inflight_of_inflight_endTransfer
    case false =>
      obtain rfl := Host.Outcome.next.inj (ht.symm.trans (exec_done_of_ret h (transferDone_full (u := u) hfull hblock)))
      rw [chan_answered]
      exact .of_inflight inflight_of_inflight_retire
  case false =>
    cases hrepeat : isRepeat (s.chan c) u
    case true =>
      obtain rfl := Host.Outcome.next.inj (ht.symm.trans (exec_done_of_ret h (transferDone_repeat hfull hrepeat)))
      rw [chan_answered]
      obtain rfl | rfl := Chan.eq_or_eq_other c d
      · intro _
        rw [chan_reloaded]
        exact .inr hfull
      · exact .of_eq (chan_other_reloaded c u s)
    case false =>
      obtain rfl := Host.Outcome.next.inj (ht.symm.trans (exec_done_of_ret h (transferDone_oneShot hfull hrepeat)))
      rw [chan_answered]
      exact .of_inflight inflight_of_inflight_retire

/-- Without a hand-over no submodule is newly in flight (R181). -/
theorem startsBInShortMode_of_not_mayHandOff {i : Instr} {s t : State} (ht : exec i s = .next t) (hi : i ≠ .reset)
    (hmay : mayHandOff i = false) (c : Chan) : StartsBInShortMode (s.chan c) (t.chan c) := by
  obtain ⟨-, s', hev, hend⟩ := exec_evolves ht hi
  obtain ⟨es, -, hemit, -, hheld⟩ := hev.trace
  have hkept : StartsBInShortMode (s.chan c) (s'.chan c) := .of_inflight fun h =>
    (hheld c .subB h).resolve_right fun he => Bool.false_ne_true (hmay.symm.trans (hemit _ he))
  cases hend with
  | normal o _ => rwa [State.chan_outcome]
  | fatal r _ => rwa [State.chan_raiseFatal]

/-- Settles O29: B is started by an Immediate, which spares B in full-address mode, or by a repeat-mode reload, which
short-address mode alone has. -/
theorem fullAddressModeStartsOnlyA : Obligations.FullAddressModeStartsOnlyA := by
  intro i s t c ht hidle hheld
  suffices hstarts : StartsBInShortMode (s.chan c) (t.chan c) from
    (hstarts hheld).resolve_left fun h => Bool.false_ne_true (hidle.symm.trans h)
  by_cases hi : i = .reset
  · subst hi
    cases ht
    exact .of_inflight fun h => absurd h (by cases c <;> exact Bool.false_ne_true)
  cases hmay : mayHandOff i
  case false => exact startsBInShortMode_of_not_mayHandOff ht hi hmay c
  case true =>
    cases i with
    | wrDmabcr d m => exact startsBInShortMode_wrDmabcr ht c
    | wrDtcra c' d m | wrDtcrb c' d m =>
      obtain ⟨-, -, hwrite⟩ := withFullMask_next s t m _ ht
      exact startsBInShortMode_writeDtcr hwrite
    | trig v => exact startsBInShortMode_trig ht c
    | done id =>
      obtain ⟨-, hid, -⟩ := withId_next s t _ _ ((exec_done id s).symm.trans ht)
      rw [eq_idOperand hid] at ht
      exact startsBInShortMode_done ht c
    | _ => cases hmay

end Sys2Proof.Machine
end
